-- ==== Sys2Proof/Word.lean ====
section
/-! DEFINITION. The widths of the LLC block's values (00_scope R7, R9; 30_encoding R80; 10_state R41). -/

namespace Sys2Proof

/-- A block register, a bus byte, WDATA or RDATA: 8 bits, unsigned (R9). -/
abbrev Byte := BitVec 8

/-- A host access word: WE in bit 11, OFF in bits 10:8, WDATA in bits 7:0 (R80). -/
abbrev AccessWord := BitVec 12

/-- A register offset of the block, 0 to 7 (R61). -/
abbrev Offset := BitVec 3

/-- A 7-bit I²C target address (R7, R63). -/
abbrev TargetAddr := BitVec 7

/-- The 64-bit overflow counter's values, and the ticks made from it (R7, R41, R183). -/
abbrev Word64 := BitVec 64

end Sys2Proof
end

