-- ==== Sys2Proof/Machine/Types.lean ====
section
/-! DEFINITION. The named values the spec gives the machine: registers, status codes, phase contexts,
commands, bus answers, bus events and the agents. -/

namespace Sys2Proof.Machine

/-- The eight registers by name (20_memory R62; the names of 30_encoding R93). -/
inductive Reg where
  | imDiv | imData | imCmd | imStat | tcCtrl | tcCnt | tcFlag | rsvd7
  deriving DecidableEq, Repr

/-- `IM_STAT.CODE`, the status of the last completed phase (10_state R26, 30_encoding R86).
`dataLast` is a byte received and answered with NACK (90_conflicts C2). -/
inductive Code where
  | idle | startSent | rstartSent | addrWAck | addrRAck | dataAck | dataLast | phaseFailed
  deriving DecidableEq, Repr

/-- `CTX`, IM's phase context (10_state R30). -/
inductive Ctx where
  | none | addr | mt | mr | mrEnd | failed
  deriving DecidableEq, Repr

/-- A command that can be pending in IM: every command of 30_encoding R84 but NOP, which is never pending (R107). -/
inductive Cmd where
  | start | stop | sendAddr | sendData | recvAck | recvNack
  deriving DecidableEq, Repr

/-- A command mnemonic (30_encoding R84), NOP included: what a host program may write to IM_CMD by name (R93). -/
inductive CmdName where
  | nop | start | stop | sendAddr | sendData | recvAck | recvNack
  deriving DecidableEq, Repr

/-- The bus's answer to a start condition (10_state R33). -/
inductive StartAns where
  | ok | err
  deriving DecidableEq, Repr, Inhabited

/-- The bus's answer to an address or a transmitted byte (10_state R33). -/
inductive AckAns where
  | ack | nack | err
  deriving DecidableEq, Repr, Inhabited

/-- One event of `TRACE` (10_state R34). In `rx`, the byte is `none` (the spec's ⊥) on a bus error. -/
inductive BusEvent where
  | start (ans : StartAns)
  | rstart (ans : StartAns)
  | addr (a7 : TargetAddr) (dir : Bool) (ans : AckAns)
  | tx (b : Byte) (ans : AckAns)
  | rx (b : Option Byte) (ans : AckAns)
  | stop
  deriving DecidableEq, Repr

/-- Who moves next: one of the four agents (00_scope R11), or the reset input (10_state R46, R230). -/
inductive Pick where
  | host | handler | tick | engine | reset
  deriving DecidableEq, Repr, Inhabited

end Sys2Proof.Machine
end

