-- ==== Sys2Proof/Machine/HostSyntax.lean ====
section
/-! DEFINITION. The assembler the host's programs are written in (30_encoding R93): lines with labels,
register accesses and the host-side steps. Host locals hold unsigned numbers (00_scope R9), labels and
locals are named by numbers. -/

namespace Sys2Proof.Machine

/-- A host local of the running procedure (42_host R170). -/
abbrev Local := Nat

/-- A label of a host program (R93). -/
abbrev Label := Nat

/-- An expression over host locals and literals (R93), with the operators of 00_scope R9 and the sums
and comparisons of the procedures of 42_host. A truth value is 1 or 0. The bounds of a field and the
distance of a shift are fixed numbers, not host locals (DESIGN CHOICE, log entry 23). -/
inductive Expr where
  | lit (n : Nat)
  | loc (v : Local)
  /-- `e[hi:lo]`; `e[i]` is `e[i:i]`. -/
  | field (e : Expr) (hi lo : Nat)
  /-- `a ++ b`, where `b` is `width` bits wide. -/
  | cat (a b : Expr) (width : Nat)
  | trunc (n : Nat) (e : Expr)
  | zext (n : Nat) (e : Expr)
  | shl (e : Expr) (k : Nat)
  | shr (e : Expr) (k : Nat)
  | bor (a b : Expr)
  | band (a b : Expr)
  | add (a b : Expr)
  | eq (a b : Expr)
  | ne (a b : Expr)
  | ge (a b : Expr)
  | both (a b : Expr)
  | either (a b : Expr)
  deriving DecidableEq, Repr

/-- What `return` gives back (R93; the returns of 42_host R175, R176, R182). -/
inductive RetExpr where
  | success
  | failure
  | busTimeout
  | value (e : Expr)
  | bytes (vs : List Local)
  deriving DecidableEq, Repr

/-- A value a procedure has returned (R175, R176, R182). -/
inductive Result where
  | success
  | failure
  | busTimeout
  | value (n : Nat)
  | bytes (bs : List Byte)
  deriving DecidableEq, Repr

/-- One statement (R93). -/
inductive Stmt where
  /-- `RD v, REG` -/
  | rd (v : Local) (r : Reg)
  /-- `WR REG, e` -/
  | wr (r : Reg) (e : Expr)
  /-- A host access presented as a word, `width` bits wide (R80; a width other than 8 is R66's case). -/
  | access (width : Nat) (w : AccessWord)
  /-- `v <- e` -/
  | assign (v : Local) (e : Expr)
  /-- `if e goto L`: it jumps when `e` is not 0 (DESIGN CHOICE, log entry 24). -/
  | ifGoto (e : Expr) (l : Label)
  /-- `goto L` -/
  | goto (l : Label)
  /-- `CS_ENTER s` (R178) -/
  | csEnter (s : Local)
  /-- `CS_EXIT s` (R179) -/
  | csExit (s : Local)
  /-- `v <- OVC` -/
  | loadOvc (v : Local)
  /-- `OVC <- e` -/
  | storeOvc (e : Expr)
  /-- `return e` -/
  | ret (e : RetExpr)
  /-- `raise Fault(BAD_CONFIG)` of `configure` (R171) -/
  | raiseBadConfig
  /-- Host platform code that sets HIE (10_state R40, 70_reset R234 item 4; DESIGN CHOICE, log entry 15). -/
  | setHie (b : Bool)
  deriving DecidableEq, Repr

/-- One line: an optional `label:` and a statement (R93). -/
structure Line where
  label : Option Label
  stmt : Stmt
  deriving DecidableEq, Repr

end Sys2Proof.Machine
end

