-- ==== Sys2Proof/Config.lean ====
section
/-! DEFINITION. The parameters of 00_scope R8 and the free values. A constant without a body has no value
that a proof could use: a statement that mentions one holds whatever it is.

The other parameters of R8 are not here: `POLL_BUDGET` is an argument of the host procedures
(Machine/Procedures.lean), `ENGINE_COMPLETES`, `SCHED_WINDOW` and `SCHED_LATENCY` are premises (Safety.lean). -/

namespace Sys2Proof.Config

open Sys2Proof.Machine

/-- `HIE_RESET`: the host's notification-enable bit after reset (10_state R45, 70_reset R233, U19). -/
opaque hieReset : Bool

/-- `BASE`: the host address of register offset 0 (R8, R61, U20). -/
opaque base : Nat

/-- `F_CORE` less one, so that `fCore` is positive whatever it is (R8). -/
opaque fCorePred : Nat

/-- `F_CORE`: the core clock in Hz, positive (R8, U20). -/
def fCore : Nat := fCorePred + 1

/-- `PRESCALE` less one, so that `prescale` is positive whatever it is (R8). -/
opaque prescalePred : Nat

/-- `PRESCALE`: core clocks per TC tick, positive (R8, R146, U20). -/
def prescale : Nat := prescalePred + 1

/-- The free byte number `n`: RD IM_DATA while busy (R103, U4), IM_DATA after a failed receive (R112, R113, U5). -/
opaque anyByte : Nat → Byte

/-- The bus's answer to a start when no listed answer is left (R33, R108, U13). -/
opaque busStart : Nat → StartAns

/-- The bus's answer to an address byte when no listed answer is left (R33, R110, U13). -/
opaque busAddr : Nat → TargetAddr → Bool → AckAns

/-- The bus's answer to a transmitted byte when no listed answer is left (R33, R111, U13). -/
opaque busTx : Nat → Byte → AckAns

/-- The bus's answer to a receive when no listed answer is left: a byte, or `none` for an error (R33, R112, U13). -/
opaque busRx : Nat → Option Byte

/-- Who moves next when no listed pick is left (R11, U22). -/
opaque pick : Nat → Pick

/-- What a host local reads as that its procedure has not assigned; the spec states no value. -/
opaque freeLocal : Nat → Local → Nat

end Sys2Proof.Config
end

