-- ==== Sys2Proof/Syntax.lean ====
section
/-! DEFINITION. The host accesses and phase commands of the block: one constructor per row of
spec/opcode_table.json (30_encoding R81, R84). A read carries no operand, because its WDATA is ignored
(R90 item 5). A write carries its WDATA whole, the ignored ones too (R117, R119, R143). -/

namespace Sys2Proof

inductive Instr where
  | rdImDiv
  | wrImDiv (d : Byte)
  | rdImData
  | wrImData (d : Byte)
  | rdImCmd
  | cmdNop
  | cmdStart
  | cmdStop
  | cmdSendAddr
  | cmdSendData
  | cmdRecvAck
  | cmdRecvNack
  | rdImStat
  | wrImStat (d : Byte)
  | rdTcCtrl
  | wrTcCtrl (d : Byte)
  | rdTcCnt
  | wrTcCnt (d : Byte)
  | rdTcFlag
  | wrTcFlag (d : Byte)
  | rdRsvd7
  | wrRsvd7 (d : Byte)
  deriving DecidableEq, Repr

end Sys2Proof
end

