-- ==== Sys2Proof/Machine/State.lean ====
section
/-! DEFINITION. The state of the block as the spec gives it (10_state R20): IM, TC, HOSTSIDE, TRACE and
FAULT; beside them the HOST agent (R21), the read port, and the inputs of the step (R20) as plain lists. -/

namespace Sys2Proof.Machine

/-- The fault reasons: the closed list of 60_exceptions R200. The step that raises one records it in
`FAULT`; every later step answers it as the machine's fault until a reset (DESIGN CHOICE, log entry 6). Stopping there is safe: the hardware's
response is not specified (93, U1-U3, U6-U9), and no claim reaches past it. -/
inductive Fault where
  /-- Raised by a HOST access that writes a reserved command to IM_CMD (R106, R90). Safe. -/
  | reservedCmd
  /-- Raised by a write to IM_DATA or a non-NOP command while `BUSY = 1` (R104, R106, R122). Safe. -/
  | busyWrite
  /-- Raised by a host access that is not 8 bits wide (R66). Safe. -/
  | width
  /-- Raised by the HANDLER or a HOST load when OVC has not been written (R151, R182, R41). Safe. -/
  | ovcUnwritten
  /-- Raised by a HOST access to OVC while `HIE = 1` (R70). Safe. -/
  | ovcUnguarded
  /-- Raised by `configure` with a zero frequency (R171). Safe. -/
  | badConfig
  deriving DecidableEq, Repr

/-- Why a step has no meaning. -/
inductive Refusal where
  /-- An instruction without a meaning yet; raised by `exec`'s arm. Safe: no claim goes through it. -/
  | notModelled (mnemonic : String)
  /-- A HOST jump to a label its program does not define: such lines are no program of 30_encoding R93
  (`programWf` refuses them). Raised by the HOST step. Safe: it stops (log entry 14). -/
  | undefinedLabel (l : Label)
  deriving DecidableEq, Repr

/-- IM, the bus master phase engine (10_state R22-R31). IM_CMD has no storage (R24). -/
structure Im where
  /-- `IM_DIV.DIV` (R22) -/
  div : Byte
  /-- `IM_DATA.DATA` (R23) -/
  data : Byte
  /-- `IM_STAT.CODE` (R26) -/
  code : Code
  /-- `IM_STAT.HELD` (R27) -/
  held : Bool
  /-- `IM_STAT.BUSY` (R28) -/
  busy : Bool
  /-- `IM_STAT.DONE` (R29) -/
  done : Bool
  /-- `CTX` (R30) -/
  ctx : Ctx
  /-- `PEND` (R31): the accepted command with the DATA byte latched at acceptance (R106). -/
  pend : Option (Cmd × Byte)
  deriving DecidableEq, Repr

/-- TC, the 8-bit free-running counter (10_state R35-R38). -/
structure Tc where
  /-- `TC_CTRL.RUN` (R35) -/
  run : Bool
  /-- `TC_CTRL.OVIE` (R35) -/
  ovie : Bool
  /-- `TC_CNT.CNT` (R36) -/
  cnt : Byte
  /-- `TC_FLAG.OVF` (R37) -/
  ovf : Bool
  /-- `PS`, the prescaler phase (R38): listed for the reset state, read and moved by no rule (DEDUCED, log entry 10). -/
  ps : Nat
  deriving DecidableEq, Repr

/-- The host-owned items of the clock (10_state R40, R41). -/
structure HostSide where
  /-- `HIE` (R40) -/
  hie : Bool
  /-- `OVC` (R41); `none` is the spec's own value `unwritten`. -/
  ovc : Option Word64
  deriving DecidableEq, Repr

/-- The HOST agent (00_scope R11; 10_state R21); how it is held and that it is empty at reset is a DESIGN
CHOICE (log entries 7 and 14). -/
structure HostCtx where
  /-- The lines of the program being run (R93). -/
  prog : List Line
  /-- The position in it. -/
  pos : Nat
  /-- The procedure's locals (R170): sorted by name, no repeats; a local not listed is unassigned. -/
  locals : List (Local × Nat)
  /-- The programs to run after this one, in order. -/
  todo : List (List Line)
  /-- What `return` has given, oldest first. -/
  results : List Result
  deriving DecidableEq, Repr

/-- The inputs of the step (10_state R20) as lists it consumes, and the count of free values drawn
(DESIGN CHOICE, log entries 3, 4 and 5). -/
structure Inputs where
  /-- Who moves next (00_scope R11). -/
  sched : List Pick
  /-- The bus's coming answers to starts (R33). -/
  starts : List StartAns
  /-- The bus's coming answers to address bytes (R33). -/
  addrs : List AckAns
  /-- The bus's coming answers to transmitted bytes (R33). -/
  txs : List AckAns
  /-- The bus's coming answers to receives: a byte, or `none` for an error (R33). -/
  rxs : List (Option Byte)
  /-- How many free values have been drawn; the number of the next one. -/
  draws : Nat
  deriving DecidableEq, Repr

structure State where
  im : Im
  tc : Tc
  hostside : HostSide
  /-- `TRACE`, oldest first (R34) -/
  trace : List BusEvent
  /-- `FAULT`, the first reason raised (R42) -/
  fault : Option Fault
  host : HostCtx
  /-- The port `rdata`: RDATA of the last read access (R46, R80; DESIGN CHOICE, log entry 2). -/
  rdata : Byte
  inputs : Inputs
  deriving DecidableEq, Repr

/-- IM at reset (R45). -/
def Im.reset : Im :=
  { div := 0, data := 0, code := .idle, held := false, busy := false, done := false, ctx := .none, pend := none }

/-- TC at reset (R45). -/
def Tc.reset : Tc := { run := false, ovie := false, cnt := 0, ovf := false, ps := 0 }

/-- HOSTSIDE at reset (R45, R232, R233). -/
def HostSide.reset : HostSide := { hie := Config.hieReset, ovc := none }

/-- The machine right after reset (R45, R230): no program is loaded and no input is listed. -/
def State.reset : State :=
  { im := Im.reset
    tc := Tc.reset
    hostside := HostSide.reset
    trace := []
    fault := none
    host := { prog := [], pos := 0, locals := [], todo := [], results := [] }
    rdata := 0
    inputs := { sched := [], starts := [], addrs := [], txs := [], rxs := [], draws := 0 } }

/-- The outcome of a step or of a meaning. -/
abbrev Outcome := Host.Outcome State Fault Refusal

end Sys2Proof.Machine
end

