-- ==== Sys2Proof/Machine/Operands.lean ====
section
/-! DEFINITION. Operand assembly: what a register access takes from WDATA (30_encoding R82, R85) and how
RDATA is put together (R87, R88). -/

namespace Sys2Proof.Machine

/-- A flag as bit 0 of a byte. -/
def bitByte (b : Bool) : Byte := (BitVec.ofBool b).setWidth 8

/-- The value of `CODE` (R86). -/
def Code.value : Code → BitVec 3
  | .idle => 0
  | .startSent => 1
  | .rstartSent => 2
  | .addrWAck => 3
  | .addrRAck => 4
  | .dataAck => 5
  | .dataLast => 6
  | .phaseFailed => 7

/-- RDATA of IM_STAT: `DONE << 7 | BUSY << 6 | HELD << 5 | CODE`, bits [4:3] zero (R87). -/
def statByte (im : Im) : Byte :=
  BitVec.ofBool im.done ++ BitVec.ofBool im.busy ++ BitVec.ofBool im.held ++ (0 : BitVec 2) ++ im.code.value

/-- RDATA of TC_CTRL: `OVIE << 1 | RUN` (R88). -/
def ctrlByte (tc : Tc) : Byte :=
  (0 : BitVec 6) ++ BitVec.ofBool tc.ovie ++ BitVec.ofBool tc.run

/-- RDATA of TC_FLAG: `OVF` (R88). -/
def flagByte (tc : Tc) : Byte := bitByte tc.ovf

/-- `RUN` as a write to TC_CTRL gives it: `d[0]` (R82, R141). -/
def ctrlRun (d : Byte) : Bool := d.getLsbD 0

/-- `OVIE` as a write to TC_CTRL gives it: `d[1]` (R82, R141). -/
def ctrlOvie (d : Byte) : Bool := d.getLsbD 1

/-- The write-1-to-clear bit of a write to TC_FLAG: `d[0]` (R82, R145). -/
def flagClear (d : Byte) : Bool := d.getLsbD 0

/-- The target address of an address byte: `b[7:1]` (R85, R110). -/
def addrOf (b : Byte) : TargetAddr := b.extractLsb' 1 7

/-- The direction bit of an address byte: `b[0]`, 1 for read (R85, R110). -/
def dirOf (b : Byte) : Bool := b.getLsbD 0

/-- The address byte of a target address and a direction: `a7 << 1 | dir` (R85). -/
def addrByte (a7 : TargetAddr) (dir : Bool) : Byte := a7 ++ BitVec.ofBool dir

/-- The offset a host address selects: `BASE + off` with `off` in 0-7, and nothing else (20_memory R61). -/
def selectedOffset (hostAddr : Nat) : Option Offset :=
  if Config.base ≤ hostAddr ∧ hostAddr < Config.base + 8 then
    some (BitVec.ofNat 3 (hostAddr - Config.base))
  else none

/-- `F_SCL` in Hz, rounded down, for a core clock and a divider (R123); timing, which no step reads (R250). -/
def busClock (fc : Nat) (div : Byte) : Nat := fc / (16 + 2 * div.toNat)

end Sys2Proof.Machine
end

