-- ==== Sys2Proof/Machine/Flags.lean ====
section
/-! DEFINITION. The flag computations: what CODE and CTX a completion leaves (40_i2c R108-R113), `finish()`
(R100), the legality of commands (R115), the overflow notification request (10_state R39) and the bus lines. -/

namespace Sys2Proof.Machine

/-- Which command is legal in which phase context (R115). NOP is legal everywhere and is not asked here. -/
def legal : Ctx → Cmd → Bool
  | _, .start => true
  | _, .stop => true
  | .addr, .sendAddr => true
  | .none, .sendAddr | .mt, .sendAddr | .mr, .sendAddr | .mrEnd, .sendAddr | .failed, .sendAddr => false
  | .mt, .sendData => true
  | .none, .sendData | .addr, .sendData | .mr, .sendData | .mrEnd, .sendData | .failed, .sendData => false
  | .mr, .recvAck => true
  | .none, .recvAck | .addr, .recvAck | .mt, .recvAck | .mrEnd, .recvAck | .failed, .recvAck => false
  | .mr, .recvNack => true
  | .none, .recvNack | .addr, .recvNack | .mt, .recvNack | .mrEnd, .recvNack | .failed, .recvNack => false

/-- `DONE <- 0; BUSY <- 1; PEND <- (c, DATA)`: the command is accepted (R106). -/
def Im.accept (im : Im) (c : Cmd) : Im :=
  { im with done := false, busy := true, pend := some (c, im.data) }

/-- The illegal-in-context completion (R114): at once, with no bus activity, HELD and DATA as they are. -/
def Im.illegalComplete (im : Im) : Im :=
  { im with code := .phaseFailed, ctx := .failed, done := true }

/-- `finish()`: `BUSY <- 0; DONE <- 1; PEND <- none` (R100). -/
def Im.finish (im : Im) : Im := { im with busy := false, done := true, pend := none }

/-- CODE and CTX after a phase with the given outcome, then `finish()`. -/
def Im.complete (im : Im) (result : Code × Ctx) : Im :=
  { im with code := result.1, ctx := result.2 }.finish

/-- CODE and CTX after any failed phase (R108, R110-R113, R202). -/
def phaseFailure : Code × Ctx := (.phaseFailed, .failed)

/-- CODE and CTX after START (R108); `held` is HELD before it. -/
def startResult (held : Bool) : StartAns → Code × Ctx
  | .ok => (if held then .rstartSent else .startSent, .addr)
  | .err => phaseFailure

/-- CODE and CTX after SEND_ADDR (R110); `dir` is 1 for read. -/
def addrResult (dir : Bool) : AckAns → Code × Ctx
  | .ack => if dir then (.addrRAck, .mr) else (.addrWAck, .mt)
  | .nack => phaseFailure
  | .err => phaseFailure

/-- CODE and CTX after SEND_DATA (R111); CTX stays as it is on ACK. -/
def txResult (ctx : Ctx) : AckAns → Code × Ctx
  | .ack => (.dataAck, ctx)
  | .nack => phaseFailure
  | .err => phaseFailure

/-- CODE and CTX after RECV_ACK with a byte (R112); CTX stays as it is. -/
def recvAckResult (ctx : Ctx) : Code × Ctx := (.dataAck, ctx)

/-- CODE and CTX after RECV_NACK with a byte (R113). -/
def recvNackResult : Code × Ctx := (.dataLast, .mrEnd)

/-- One tick of the counter (41_counter R148): the wrap and OVF in one step (R147), else CNT + 1. -/
def Tc.tick (tc : Tc) : Tc :=
  if tc.cnt = 255 then { tc with cnt := 0, ovf := true } else { tc with cnt := tc.cnt + 1 }

/-- `IRQ_OVF = OVF & OVIE` (10_state R39, 41_counter R150). -/
def irqOvf (tc : Tc) : Bool := tc.ovf && tc.ovie

/-- The HANDLER has a step enabled: `OVF = 1 ∧ OVIE = 1 ∧ HIE = 1` (60_exceptions R205). -/
def handlerEnabled (s : State) : Bool := irqOvf s.tc && s.hostside.hie

/-- IM pulls SCL low between phases: while `HELD = 1` (10_state R32). -/
def sclHeldLow (im : Im) : Bool := im.held

/-- Both bus lines are released between phases: while `HELD = 0` (10_state R32, 70_reset R231). -/
def linesReleased (im : Im) : Bool := !im.held

end Sys2Proof.Machine
end

