-- ==== Sys2Proof/Machine/Ops.lean ====
section
/-! DEFINITION. The named operations over the state: writing its parts, raising a fault, the draws of the
bus oracle and of free values, the host's locals and OVC, taking the overflow notification, reset. -/

namespace Sys2Proof.Machine

/-- Write IM. -/
def State.setIm (s : State) (im : Im) : State := { s with im := im }

/-- Write TC. -/
def State.setTc (s : State) (tc : Tc) : State := { s with tc := tc }

/-- Write HOSTSIDE. -/
def State.setHostSide (s : State) (h : HostSide) : State := { s with hostside := h }

/-- Write the HOST agent. -/
def State.setHost (s : State) (h : HostCtx) : State := { s with host := h }

/-- Write the inputs. -/
def State.setInputs (s : State) (i : Inputs) : State := { s with inputs := i }

/-- A read access returns `v` to the host (30_encoding R80). -/
def State.ret (s : State) (v : Byte) : State := { s with rdata := v }

/-- `trace += e` (00_scope R10). -/
def State.addEvent (s : State) (e : BusEvent) : State := { s with trace := s.trace ++ [e] }

/-- `raise Fault(reason)` (00_scope R10): FAULT takes the reason unless one is recorded (60_exceptions R200).
The rest of the raising step is not performed (DESIGN CHOICE, log entry 6). -/
def State.raise (s : State) (r : Fault) : State := { s with fault := s.fault.or (some r) }

/-- One more free value has been drawn. -/
def State.drawn (s : State) : State :=
  s.setInputs { s.inputs with draws := s.inputs.draws + 1 }

/-- The free byte a draw gives now (U4, U5). -/
def State.freeByte (s : State) : Byte := Config.anyByte s.inputs.draws

/-- `draw BUS.start` (R108): the answer. -/
def State.startAnswer (s : State) : StartAns :=
  match s.inputs.starts with
  | a :: _ => a
  | [] => Config.busStart s.inputs.draws

/-- `draw BUS.start`: the state after it. -/
def State.startTaken (s : State) : State :=
  match s.inputs.starts with
  | _ :: rest => s.setInputs { s.inputs with starts := rest }
  | [] => s.drawn

/-- `draw BUS.addr(a7, dir)` (R110): the answer. -/
def State.addrAnswer (s : State) (a7 : TargetAddr) (dir : Bool) : AckAns :=
  match s.inputs.addrs with
  | a :: _ => a
  | [] => Config.busAddr s.inputs.draws a7 dir

/-- `draw BUS.addr`: the state after it. -/
def State.addrTaken (s : State) : State :=
  match s.inputs.addrs with
  | _ :: rest => s.setInputs { s.inputs with addrs := rest }
  | [] => s.drawn

/-- `draw BUS.tx(b)` (R111): the answer. -/
def State.txAnswer (s : State) (b : Byte) : AckAns :=
  match s.inputs.txs with
  | a :: _ => a
  | [] => Config.busTx s.inputs.draws b

/-- `draw BUS.tx`: the state after it. -/
def State.txTaken (s : State) : State :=
  match s.inputs.txs with
  | _ :: rest => s.setInputs { s.inputs with txs := rest }
  | [] => s.drawn

/-- `draw BUS.rx` (R112, R113): a byte, or `none` for an error. -/
def State.rxAnswer (s : State) : Option Byte :=
  match s.inputs.rxs with
  | a :: _ => a
  | [] => Config.busRx s.inputs.draws

/-- `draw BUS.rx`: the state after it. -/
def State.rxTaken (s : State) : State :=
  match s.inputs.rxs with
  | _ :: rest => s.setInputs { s.inputs with rxs := rest }
  | [] => s.drawn

/-- Who moves next (00_scope R11). -/
def State.nextPick (s : State) : Pick :=
  match s.inputs.sched with
  | p :: _ => p
  | [] => Config.pick s.inputs.draws

/-- The state once the pick of who moves next is used up. -/
def State.pickTaken (s : State) : State :=
  match s.inputs.sched with
  | _ :: rest => s.setInputs { s.inputs with sched := rest }
  | [] => s.drawn

/-- What a list of locals holds for a name. -/
def localGet (v : Local) : List (Local × Nat) → Option Nat
  | [] => none
  | (k, n) :: rest => if v = k then some n else localGet v rest

/-- A list of locals with a name assigned: the list stays sorted by name, with no repeats. -/
def localSet (v : Local) (n : Nat) : List (Local × Nat) → List (Local × Nat)
  | [] => [(v, n)]
  | (k, m) :: rest =>
    if v < k then (v, n) :: (k, m) :: rest
    else if v = k then (v, n) :: rest
    else (k, m) :: localSet v n rest

/-- The canonical form of a list of locals: names strictly rising. -/
def localsWf : List (Local × Nat) → Bool
  | [] => true
  | [_] => true
  | (k, _) :: (k', n') :: rest => decide (k < k') && localsWf ((k', n') :: rest)

/-- The value of a host local; one the procedure has not assigned reads as a free value (DESIGN
CHOICE, log entry 14). -/
def State.localVal (s : State) (v : Local) : Nat :=
  match localGet v s.host.locals with
  | some n => n
  | none => Config.freeLocal s.inputs.draws v

/-- `v <- n`. -/
def State.setLocal (s : State) (v : Local) (n : Nat) : State :=
  s.setHost { s.host with locals := localSet v n s.host.locals }

/-- HOST goes on with the next line. -/
def State.advance (s : State) : State := s.setHost { s.host with pos := s.host.pos + 1 }

/-- HOST goes to a position of its program. -/
def State.goTo (s : State) (pos : Nat) : State := s.setHost { s.host with pos := pos }

/-- TAKING THE OVERFLOW NOTIFICATION, the acknowledge and the handler's body as one atomic step (41_counter
R151, 42_host R181, 60_exceptions R206-R208): OVF is cleared, then OVC is incremented modulo 2^64, or the
fault is raised when OVC is unwritten. Entry and return save and restore host state only, of which the
model sees nothing (R207), and HIE stays as it is (R208), so the return is the end of this same step. -/
def State.takeNotification (s : State) : State :=
  let s1 := s.setTc { s.tc with ovf := false }
  match s1.hostside.ovc with
  | none => s1.raise .ovcUnwritten
  | some n => s1.setHostSide { s1.hostside with ovc := some (n + 1) }

/-- `rst_n` asserted (70_reset R230): every state element of 10_state R45 takes its reset value. The HOST
agent and the inputs are no state elements of the spec's tuple (10_state R20) and stay (DESIGN CHOICE, log
entry 11). -/
def State.applyReset (s : State) : State :=
  { State.reset with host := s.host, inputs := s.inputs }

end Sys2Proof.Machine
end

