-- ==== Sys2Proof/Machine/Engine.lean ====
section
/-! DEFINITION. The ENGINE agent: the phase commands' complete parts (40_i2c R108-R113, R120). -/

namespace Sys2Proof.Machine

/-- START completes (R108): a repeated start if the bus is held; HELD becomes 1 whatever the answer. -/
def completeStart (s : State) : State :=
  let ans := s.startAnswer
  let s1 := s.startTaken.addEvent (if s.im.held then .rstart ans else .start ans)
  s1.setIm ({ s.im with held := true }.complete (startResult s.im.held ans))

/-- STOP completes (R109): a stop on the bus only if it is held; no draw, a stop cannot fail. -/
def completeStop (s : State) : State :=
  let s1 := if s.im.held then s.addEvent .stop else s
  s1.setIm ({ s.im with held := false }.complete (.idle, .none))

/-- SEND_ADDR completes (R110) with the latched byte. -/
def completeSendAddr (b : Byte) (s : State) : State :=
  let ans := s.addrAnswer (addrOf b) (dirOf b)
  let s1 := s.addrTaken.addEvent (.addr (addrOf b) (dirOf b) ans)
  s1.setIm (s.im.complete (addrResult (dirOf b) ans))

/-- SEND_DATA completes (R111) with the latched byte. -/
def completeSendData (b : Byte) (s : State) : State :=
  let ans := s.txAnswer b
  let s1 := s.txTaken.addEvent (.tx b ans)
  s1.setIm (s.im.complete (txResult s.im.ctx ans))

/-- A receive that got the byte `v` and answered it with `sent`, leaving `result` (R112, R113). -/
def receiveByte (v : Byte) (sent : AckAns) (result : Code × Ctx) (s : State) : State :=
  let s1 := s.rxTaken.addEvent (.rx (some v) sent)
  s1.setIm ({ s.im with data := v }.complete result)

/-- A receive that ended with a bus error (R112, R113): DATA becomes any byte. -/
def receiveError (s : State) : State :=
  let s1 := s.rxTaken
  let s2 := s1.drawn.addEvent (.rx none .err)
  s2.setIm ({ s.im with data := s1.freeByte }.complete phaseFailure)

/-- RECV_ACK completes (R112). -/
def completeRecvAck (s : State) : State :=
  match s.rxAnswer with
  | some v => receiveByte v .ack (recvAckResult s.im.ctx) s
  | none => receiveError s

/-- RECV_NACK completes (R113). -/
def completeRecvNack (s : State) : State :=
  match s.rxAnswer with
  | some v => receiveByte v .nack recvNackResult s
  | none => receiveError s

/-- The complete part of a pending command (R120). -/
def completeCommand (c : Cmd) (b : Byte) (s : State) : State :=
  match c with
  | .start => completeStart s
  | .stop => completeStop s
  | .sendAddr => completeSendAddr b s
  | .sendData => completeSendData b s
  | .recvAck => completeRecvAck s
  | .recvNack => completeRecvNack s

/-- The ENGINE's step (R120), enabled exactly when `BUSY = 1`; while it is not, nothing happens. A busy
state without a pending command is none the machine reaches (10_state R43); there only `finish()` is left
(DESIGN CHOICE, log entry 13). -/
def engineStep (s : State) : Outcome :=
  if s.im.busy then
    match s.im.pend with
    | some (c, b) => .next (completeCommand c b s)
    | none => .next (s.setIm s.im.finish)
  else .next s

end Sys2Proof.Machine
end

