-- ==== Sys2Proof/WellFormed.lean ====
section
/-! DEFINITION. Well-formed instructions, and well-formed host programs (30_encoding R93). -/

namespace Sys2Proof

/-- Every operand is a byte by its type and every byte is legal (30_encoding R82, R90), so every
instruction is well-formed. A reserved command (R89 items 1 and 2) is no instruction: the decoder rejects it. -/
def Instr.wf : Instr → Bool
  | .rdImDiv | .rdImData | .rdImCmd | .rdImStat | .rdTcCtrl | .rdTcCnt | .rdTcFlag | .rdRsvd7 => true
  | .cmdNop | .cmdStart | .cmdStop | .cmdSendAddr | .cmdSendData | .cmdRecvAck | .cmdRecvNack => true
  | .wrImDiv _ | .wrImData _ | .wrImStat _ | .wrTcCtrl _ | .wrTcCnt _ | .wrTcFlag _ | .wrRsvd7 _ => true

namespace Machine

/-- A field `e[hi:lo]` runs downwards (00_scope R9). -/
def Expr.wf : Expr → Bool
  | .lit _ | .loc _ => true
  | .field e hi lo => decide (lo ≤ hi) && e.wf
  | .trunc _ e | .zext _ e | .shl e _ | .shr e _ => e.wf
  | .cat a b _ | .bor a b | .band a b | .add a b => a.wf && b.wf
  | .eq a b | .ne a b | .ge a b | .both a b | .either a b => a.wf && b.wf

/-- The label a statement jumps to, if it jumps. -/
def Stmt.target : Stmt → Option Label
  | .ifGoto _ l | .goto l => some l
  | .rd _ _ | .wr _ _ | .access _ _ | .assign _ _ | .csEnter _ | .csExit _ | .loadOvc _
  | .storeOvc _ | .ret _ | .raiseBadConfig | .setHie _ => none

/-- A statement's own expressions are well-formed. -/
def Stmt.exprsWf : Stmt → Bool
  | .wr _ e | .assign _ e | .ifGoto e _ | .storeOvc e | .ret (.value e) => e.wf
  | .rd _ _ | .access _ _ | .goto _ | .csEnter _ | .csExit _ | .loadOvc _
  | .ret .success | .ret .failure | .ret .busTimeout | .ret (.bytes _) | .raiseBadConfig | .setHie _ => true

/-- The labels a program defines, in order. -/
def programLabels (p : List Line) : List Label := p.filterMap (·.label)

/-- No label is defined twice; a program that does is ill-formed (DESIGN CHOICE, log entry 14). -/
def labelsDistinct (p : List Line) : Bool := decide (programLabels p).Nodup

/-- Every jump has its label in the program. -/
def jumpsResolve (p : List Line) : Bool :=
  (p.filterMap (·.stmt.target)).all fun l => (programLabels p).contains l

/-- A host program of R93: labels defined once, jumps that resolve, well-formed expressions. -/
def programWf (p : List Line) : Bool :=
  labelsDistinct p && jumpsResolve p && p.all (·.stmt.exprsWf)

end Machine

end Sys2Proof
end

