-- ==== Sys2Proof/Decode.lean ====
section
/-! DEFINITION. Decoding and encoding of access words (30_encoding R80-R84, R89, R90, R92). -/

namespace Sys2Proof

open Sys2Proof.Machine (Reg)

/-- The access word `WE << 11 | OFF << 8 | WDATA` (R80). -/
def accessWord (we : Bool) (off : Offset) (d : Byte) : AccessWord := BitVec.ofBool we ++ off ++ d

/-- Bit 11, `WE` (R80). -/
def wordWe (w : AccessWord) : Bool := w.getLsbD 11

/-- Bits 10:8, `OFF` (R80). -/
def wordOff (w : AccessWord) : Offset := w.extractLsb' 8 3

/-- Bits 7:0, `WDATA` (R80). -/
def wordData (w : AccessWord) : Byte := w.extractLsb' 0 8

/-- The offset of a register (20_memory R62). -/
def regOffset : Reg → Offset
  | .imDiv => 0 | .imData => 1 | .imCmd => 2 | .imStat => 3
  | .tcCtrl => 4 | .tcCnt => 5 | .tcFlag => 6 | .rsvd7 => 7

/-- The register at an offset (20_memory R62). -/
def regAt (off : Offset) : Reg :=
  if off = 0 then .imDiv else if off = 1 then .imData else if off = 2 then .imCmd
  else if off = 3 then .imStat else if off = 4 then .tcCtrl else if off = 5 then .tcCnt
  else if off = 6 then .tcFlag else .rsvd7

/-- Why a word is no instruction. -/
inductive DecodeError where
  /-- A command byte with `CMD = 7` or `WDATA[7:3] ≠ 0` (R89 items 1 and 2). -/
  | reservedCommand (d : Byte)
  /-- A number that does not fit the 12 bits of an access word (R80). -/
  | notAccessWord (w : Nat)
  deriving DecidableEq, Repr

/-- What the decoder answers. -/
inductive Decoded where
  | instr (i : Instr)
  | rejected (e : DecodeError)
  deriving DecidableEq, Repr

/-- A command byte is reserved when `d[7:3] ≠ 0` or `d[2:0] = 7` (R89 items 1 and 2, R92). -/
def commandReserved (d : Byte) : Bool :=
  decide (d.extractLsb' 3 5 ≠ 0) || decide (d.extractLsb' 0 3 = 7)

/-- The command of `CMD = d[2:0]` (R84); asked only for a byte that is not reserved. -/
def commandOf (d : Byte) : Instr :=
  let c := d.extractLsb' 0 3
  if c = 0 then .cmdNop else if c = 1 then .cmdStart else if c = 2 then .cmdStop
  else if c = 3 then .cmdSendAddr else if c = 4 then .cmdSendData else if c = 5 then .cmdRecvAck
  else .cmdRecvNack

/-- A read by register (R81); `WDATA` plays no part (R90 item 5). -/
def decodeRead : Reg → Instr
  | .imDiv => .rdImDiv
  | .imData => .rdImData
  | .imCmd => .rdImCmd
  | .imStat => .rdImStat
  | .tcCtrl => .rdTcCtrl
  | .tcCnt => .rdTcCnt
  | .tcFlag => .rdTcFlag
  | .rsvd7 => .rdRsvd7

/-- A write by register (R81, R92). -/
def decodeWrite (d : Byte) : Reg → Decoded
  | .imDiv => .instr (.wrImDiv d)
  | .imData => .instr (.wrImData d)
  | .imCmd => if commandReserved d then .rejected (.reservedCommand d) else .instr (commandOf d)
  | .imStat => .instr (.wrImStat d)
  | .tcCtrl => .instr (.wrTcCtrl d)
  | .tcCnt => .instr (.wrTcCnt d)
  | .tcFlag => .instr (.wrTcFlag d)
  | .rsvd7 => .instr (.wrRsvd7 d)

/-- The decoder, total on 12-bit words (R92). -/
def decode (w : AccessWord) : Decoded :=
  if wordWe w then decodeWrite (wordData w) (regAt (wordOff w))
  else .instr (decodeRead (regAt (wordOff w)))

/-- The decoder on any number: what does not fit 12 bits is rejected by name (DEDUCED, log entry 1). -/
def decodeNat (w : Nat) : Decoded :=
  if w < 4096 then decode (BitVec.ofNat 12 w) else .rejected (.notAccessWord w)

/-- The access word of an instruction (R80, R81, R84); a read carries `WDATA = 0`, as programs write it (R80). -/
def encode : Instr → AccessWord
  | .rdImDiv => accessWord false 0 0
  | .wrImDiv d => accessWord true 0 d
  | .rdImData => accessWord false 1 0
  | .wrImData d => accessWord true 1 d
  | .rdImCmd => accessWord false 2 0
  | .cmdNop => accessWord true 2 0
  | .cmdStart => accessWord true 2 1
  | .cmdStop => accessWord true 2 2
  | .cmdSendAddr => accessWord true 2 3
  | .cmdSendData => accessWord true 2 4
  | .cmdRecvAck => accessWord true 2 5
  | .cmdRecvNack => accessWord true 2 6
  | .rdImStat => accessWord false 3 0
  | .wrImStat d => accessWord true 3 d
  | .rdTcCtrl => accessWord false 4 0
  | .wrTcCtrl d => accessWord true 4 d
  | .rdTcCnt => accessWord false 5 0
  | .wrTcCnt d => accessWord true 5 d
  | .rdTcFlag => accessWord false 6 0
  | .wrTcFlag d => accessWord true 6 d
  | .rdRsvd7 => accessWord false 7 0
  | .wrRsvd7 d => accessWord true 7 d

/-- The number of `nbits` bits, in the numbering of spec/opcode_table.json, through the decoder. The
access word is one 12-bit word, so its bits are the table's bits; a longer number's further bits must be 0. -/
def decodeTableWord (nbits w : Nat) : Option Instr :=
  match decodeNat (w % 2 ^ nbits) with
  | .instr i => some i
  | .rejected _ => none

end Sys2Proof
end

