-- ==== Sys2Proof/Machine/ImAccess.lean ====
section
/-! DEFINITION. The plain accesses to IM's registers and to the reserved offset 7 (40_i2c R101-R105, R116-R119). -/

namespace Sys2Proof.Machine

/-- RD IM_DIV (R101). -/
def execRdImDiv (s : State) : Outcome := .next (s.ret s.im.div)

/-- WR IM_DIV, d (R102): every value is stored, in every state. -/
def execWrImDiv (d : Byte) (s : State) : Outcome := .next (s.setIm { s.im with div := d })

/-- RD IM_DATA (R103): DATA, or any byte while `BUSY = 1`; DATA itself does not change. -/
def execRdImData (s : State) : Outcome :=
  if s.im.busy then .next (s.drawn.ret s.freeByte) else .next (s.ret s.im.data)

/-- WR IM_DATA, d (R104): `BUSY_WRITE` while `BUSY = 1`. -/
def execWrImData (d : Byte) (s : State) : Outcome :=
  if s.im.busy then .next (s.raise .busyWrite) else .next (s.setIm { s.im with data := d })

/-- RD IM_CMD (R105). -/
def execRdImCmd (s : State) : Outcome := .next (s.ret 0)

/-- RD IM_STAT (R116): the read clears nothing. -/
def execRdImStat (s : State) : Outcome := .next (s.ret (statByte s.im))

/-- WR IM_STAT, d (R117): ignored. -/
def execWrImStat (_ : Byte) (s : State) : Outcome := .next s

/-- RD RSVD7 (R118). -/
def execRdRsvd7 (s : State) : Outcome := .next (s.ret 0)

/-- WR RSVD7, d (R119): ignored. -/
def execWrRsvd7 (_ : Byte) (s : State) : Outcome := .next s

end Sys2Proof.Machine
end

