-- ==== Sys2Proof/Machine/ImCommand.lean ====
section
/-! DEFINITION. The phase commands' accept parts (40_i2c R106-R115): what the HOST step that writes IM_CMD
does. Their complete parts are the ENGINE's (Machine/Engine.lean). A reserved command never gets here: the
decoder rejects it, and the HOST access raises RESERVED_CMD before BUSY is looked at (R106, R200). -/

namespace Sys2Proof.Machine

/-- Acceptance of a command that is neither NOP nor reserved (R106): BUSY_WRITE while busy, the
illegal-in-context completion (R114) where R115 says N, else the command becomes pending. -/
def acceptCommand (c : Cmd) (s : State) : Outcome :=
  if s.im.busy then .next (s.raise .busyWrite)
  else if legal s.im.ctx c then .next (s.setIm (s.im.accept c))
  else .next (s.setIm s.im.illegalComplete)

/-- NOP (R107): no effect, legal even while busy. -/
def execCmdNop (s : State) : Outcome := .next s

/-- START (R108), accept part. -/
def execCmdStart (s : State) : Outcome := acceptCommand .start s

/-- STOP (R109), accept part. -/
def execCmdStop (s : State) : Outcome := acceptCommand .stop s

/-- SEND_ADDR (R110), accept part. -/
def execCmdSendAddr (s : State) : Outcome := acceptCommand .sendAddr s

/-- SEND_DATA (R111), accept part. -/
def execCmdSendData (s : State) : Outcome := acceptCommand .sendData s

/-- RECV_ACK (R112), accept part. -/
def execCmdRecvAck (s : State) : Outcome := acceptCommand .recvAck s

/-- RECV_NACK (R113), accept part. -/
def execCmdRecvNack (s : State) : Outcome := acceptCommand .recvNack s

end Sys2Proof.Machine
end

