-- ==== Sys2Proof/Machine/TcAccess.lean ====
section
/-! DEFINITION. The accesses to TC's registers (41_counter R140-R145). -/

namespace Sys2Proof.Machine

/-- RD TC_CTRL (R140). -/
def execRdTcCtrl (s : State) : Outcome := .next (s.ret (ctrlByte s.tc))

/-- WR TC_CTRL, d (R141): `RUN <- d[0]; OVIE <- d[1]`; OVF and CNT stay. -/
def execWrTcCtrl (d : Byte) (s : State) : Outcome :=
  .next (s.setTc { s.tc with run := ctrlRun d, ovie := ctrlOvie d })

/-- RD TC_CNT (R142). -/
def execRdTcCnt (s : State) : Outcome := .next (s.ret s.tc.cnt)

/-- WR TC_CNT, d (R143): ignored. -/
def execWrTcCnt (_ : Byte) (s : State) : Outcome := .next s

/-- RD TC_FLAG (R144): the read does not clear OVF. -/
def execRdTcFlag (s : State) : Outcome := .next (s.ret (flagByte s.tc))

/-- WR TC_FLAG, d (R145): `if d[0] = 1 then OVF <- 0`. -/
def execWrTcFlag (d : Byte) (s : State) : Outcome :=
  if flagClear d then .next (s.setTc { s.tc with ovf := false }) else .next s

end Sys2Proof.Machine
end

