-- ==== Sys2Proof/Machine/Dispatch.lean ====
section
/-! DEFINITION. What a host access does, by instruction (30_encoding R81, R84). -/

namespace Sys2Proof.Machine

def exec (i : Instr) (s : State) : Host.Outcome State Fault Refusal :=
  match i with
  | .rdImDiv => Sys2Proof.Machine.execRdImDiv s
  | .wrImDiv d => Sys2Proof.Machine.execWrImDiv d s
  | .rdImData => Sys2Proof.Machine.execRdImData s
  | .wrImData d => Sys2Proof.Machine.execWrImData d s
  | .rdImCmd => Sys2Proof.Machine.execRdImCmd s
  | .cmdNop => Sys2Proof.Machine.execCmdNop s
  | .cmdStart => Sys2Proof.Machine.execCmdStart s
  | .cmdStop => Sys2Proof.Machine.execCmdStop s
  | .cmdSendAddr => Sys2Proof.Machine.execCmdSendAddr s
  | .cmdSendData => Sys2Proof.Machine.execCmdSendData s
  | .cmdRecvAck => Sys2Proof.Machine.execCmdRecvAck s
  | .cmdRecvNack => Sys2Proof.Machine.execCmdRecvNack s
  | .rdImStat => Sys2Proof.Machine.execRdImStat s
  | .wrImStat d => Sys2Proof.Machine.execWrImStat d s
  | .rdTcCtrl => Sys2Proof.Machine.execRdTcCtrl s
  | .wrTcCtrl d => Sys2Proof.Machine.execWrTcCtrl d s
  | .rdTcCnt => Sys2Proof.Machine.execRdTcCnt s
  | .wrTcCnt d => Sys2Proof.Machine.execWrTcCnt d s
  | .rdTcFlag => Sys2Proof.Machine.execRdTcFlag s
  | .wrTcFlag d => Sys2Proof.Machine.execWrTcFlag d s
  | .rdRsvd7 => Sys2Proof.Machine.execRdRsvd7 s
  | .wrRsvd7 d => Sys2Proof.Machine.execWrRsvd7 d s

end Sys2Proof.Machine
end

