-- ==== Sys2Proof/Machine/HostAgent.lean ====
section
/-! DEFINITION. The HOST agent: one line of its program is one step (30_encoding R93, 42_host R170). -/

namespace Sys2Proof.Machine

/-- 1 for true, 0 for false. -/
def truth (b : Bool) : Nat := if b then 1 else 0

/-- The value of an expression (00_scope R9): unsigned numbers; `<<` in the 64-bit context (DEDUCED, log
entry 18); `both` and `either` take any number but 0 as true (DESIGN CHOICE, log entry 24). -/
def eval (s : State) : Expr → Nat
  | .lit n => n
  | .loc v => s.localVal v
  | .field e hi lo => (eval s e >>> lo) % 2 ^ (hi + 1 - lo)
  | .cat a b width => eval s a * 2 ^ width + eval s b % 2 ^ width
  | .trunc n e => eval s e % 2 ^ n
  | .zext _ e => eval s e
  | .shl e k => (eval s e <<< k) % 2 ^ 64
  | .shr e k => eval s e >>> k
  | .bor a b => eval s a ||| eval s b
  | .band a b => eval s a &&& eval s b
  | .add a b => eval s a + eval s b
  | .eq a b => truth (eval s a == eval s b)
  | .ne a b => truth (eval s a != eval s b)
  | .ge a b => truth (decide (eval s b ≤ eval s a))
  | .both a b => truth (eval s a != 0 && eval s b != 0)
  | .either a b => truth (eval s a != 0 || eval s b != 0)

/-- The value `return` gives (R93); a byte of a returned list is its local's low 8 bits (DEDUCED, log entry 18). -/
def evalRet (s : State) : RetExpr → Result
  | .success => .success
  | .failure => .failure
  | .busTimeout => .busTimeout
  | .value e => .value (eval s e)
  | .bytes vs => .bytes (vs.map fun v => BitVec.ofNat 8 (s.localVal v))

/-- The position of a label in a program (R93): the first line with it, where a program, ill-formed by
`programWf`, defines it twice (DESIGN CHOICE, log entry 14). -/
def findLabel (l : Label) : List Line → Option Nat
  | [] => none
  | line :: rest => if line.label = some l then some 0 else (findLabel l rest).map (· + 1)

/-- HOST jumps to a label. -/
def jump (l : Label) (s : State) : Outcome :=
  match findLabel l s.host.prog with
  | some pos => .next (s.goTo pos)
  | none => .refused (.undefinedLabel l)

/-- After an access: a raised fault leaves HOST where it is; else a read's RDATA goes to its local, and
HOST goes on. -/
def afterAccess (dst : Option Local) (s : State) : State :=
  match s.fault with
  | some _ => s
  | none =>
    match dst with
    | some v => (s.setLocal v s.rdata.toNat).advance
    | none => s.advance

/-- A host access to the block (R80): a width other than 8 is `WIDTH` (20_memory R66); a reserved command is
`RESERVED_CMD`, before BUSY is looked at (R106, R200); else the decoded instruction's effect. -/
def hostAccess (width : Nat) (w : AccessWord) (dst : Option Local) (s : State) : Outcome :=
  if width = 8 then
    match decode w with
    | .instr i =>
      match exec i s with
      | .next t => .next (afterAccess dst t)
      | .fault r => .fault r
      | .refused r => .refused r
    | .rejected _ => .next (s.raise .reservedCmd)
  else .next (s.raise .width)

/-- `CS_ENTER v` (42_host R178): `v <- HIE; HIE <- 0` in one step. -/
def csEnter (v : Local) (s : State) : State :=
  (s.setLocal v (truth s.hostside.hie)).setHostSide { s.hostside with hie := false }

/-- `CS_EXIT v` (42_host R179): `HIE <- v`, the saved bit (bit 0 of the local, log entry 18). -/
def csExit (v : Local) (s : State) : State :=
  s.setHostSide { s.hostside with hie := (s.localVal v).testBit 0 }

/-- `v <- OVC` (R93): unguarded while `HIE = 1` (20_memory R70), unwritten before `clock_init` (10_state R41);
the order of the two checks is a DESIGN CHOICE (log entry 12). -/
def loadOvc (v : Local) (s : State) : State :=
  if s.hostside.hie then s.raise .ovcUnguarded
  else
    match s.hostside.ovc with
    | none => s.raise .ovcUnwritten
    | some n => (s.setLocal v n.toNat).advance

/-- `OVC <- e` (R93): unguarded while `HIE = 1` (20_memory R70); else the 64-bit value is written. -/
def storeOvc (n : Nat) (s : State) : State :=
  if s.hostside.hie then s.raise .ovcUnguarded
  else (s.setHostSide { s.hostside with ovc := some (BitVec.ofNat 64 n) }).advance

/-- `return e` (R93): the value is kept and the program is over. -/
def returnWith (r : Result) (s : State) : State :=
  s.setHost { s.host with results := s.host.results ++ [r], pos := s.host.prog.length }

/-- One statement (R93). `if e goto L` jumps on any value of `e` but 0 (DESIGN CHOICE, log entry 24). -/
def execStmt (st : Stmt) (s : State) : Outcome :=
  match st with
  | .rd v r => hostAccess 8 (accessWord false (regOffset r) 0) (some v) s
  | .wr r e => hostAccess 8 (accessWord true (regOffset r) (BitVec.ofNat 8 (eval s e))) none s
  | .access width w => hostAccess width w none s
  | .assign v e => .next (s.setLocal v (eval s e)).advance
  | .ifGoto e l => if eval s e ≠ 0 then jump l s else .next s.advance
  | .goto l => jump l s
  | .csEnter v => .next (csEnter v s).advance
  | .csExit v => .next (csExit v s).advance
  | .loadOvc v => .next (loadOvc v s)
  | .storeOvc e => .next (storeOvc (eval s e) s)
  | .ret r => .next (returnWith (evalRet s r) s)
  | .raiseBadConfig => .next (s.raise .badConfig)
  | .setHie b => .next (s.setHostSide { s.hostside with hie := b }).advance

/-- The line HOST runs next. -/
def currentLine (s : State) : Option Line := s.host.prog[s.host.pos]?

/-- HOST begins the next program: a procedure's locals are its own (R170). -/
def loadProgram (p : List Line) (rest : List (List Line)) (s : State) : State :=
  s.setHost { s.host with prog := p, pos := 0, locals := [], todo := rest }

/-- The HOST's step: the line at its position; at the end of a program the next one begins; with none left
HOST has no step and nothing happens. -/
def hostStep (s : State) : Outcome :=
  match currentLine s with
  | some line => execStmt line.stmt s
  | none =>
    match s.host.todo with
    | p :: rest => .next (loadProgram p rest s)
    | [] => .next s

end Sys2Proof.Machine
end

