-- ==== Sys2Proof/Machine/Agents.lean ====
section
/-! DEFINITION. The agents' steps together (00_scope R11). An agent that is picked while it has no step
enabled does nothing (DESIGN CHOICE, log entry 3). -/

namespace Sys2Proof.Machine

/-- The TICK agent's step (41_counter R146, R148), enabled exactly when `RUN = 1`. -/
def tickStep (s : State) : Outcome :=
  if s.tc.run then .next (s.setTc s.tc.tick) else .next s

/-- The HANDLER agent's step (41_counter R151, 60_exceptions R205), enabled exactly when OVF, OVIE and HIE are 1. -/
def handlerStep (s : State) : Outcome :=
  if handlerEnabled s then .next s.takeNotification else .next s

/-- The step of the agent that moves. -/
def agentStep (p : Pick) (s : State) : Outcome :=
  match p with
  | .host => hostStep s
  | .handler => handlerStep s
  | .tick => tickStep s
  | .engine => engineStep s
  | .reset => .next s.applyReset

/-- The step of a state with a recorded fault (10_state R42, 60_exceptions R200): no agent moves, and the fault
is the outcome (DESIGN CHOICE, log entry 6); the reset input acts as in every other state (70_reset R230). -/
def faultedStep (r : Fault) (p : Pick) (s : State) : Outcome :=
  match p with
  | .reset => agentStep .reset s
  | .host | .handler | .tick | .engine => .fault r

/-- HOST's context when it is to run the one access word `w` next, as the whole of its program. -/
def HostCtx.withAccess (h : HostCtx) (w : AccessWord) : HostCtx :=
  { h with prog := [{ label := none, stmt := .access 8 w }], pos := 0 }

end Sys2Proof.Machine
end

