-- ==== Sys2Proof/Machine/Step.lean ====
section
/-! DEFINITION. One step of the machine (00_scope R11, 20_memory R71): the agent that is picked moves. A
recorded FAULT stops the agents (10_state R42, 60_exceptions R200); only a reset goes on (70_reset R230). -/

namespace Sys2Proof.Machine

def step (s : State) : Host.Outcome State Fault Refusal :=
  match s.fault with
  | some r => faultedStep r s.nextPick s.pickTaken
  | none => agentStep s.nextPick s.pickTaken

/-- The state in which the very next step is HOST's, and runs the access word whose bits are `w`: the word
is HOST's program, HOST is picked, and no fault of an earlier run is recorded (DESIGN CHOICE,
log entry 7). -/
def State.withFetchWord (s : State) (nbits w : Nat) : State :=
  { s with
    fault := none
    host := s.host.withAccess (BitVec.ofNat 12 (w % 2 ^ nbits))
    inputs := { s.inputs with sched := .host :: s.inputs.sched } }

end Sys2Proof.Machine
end

