-- ==== Sys2Proof/Machine/Procedures.lean ====
section
/-! DEFINITION. The host reference procedures as host programs (42_host R171-R182) and the pseudo-instructions
(30_encoding R94). A procedure's loops over a buffer are written out for the buffer it is given, as in the
example programs of 95_test_vectors; `return e` ends it (DEDUCED, log entry 17). -/

namespace Sys2Proof.Machine

/-- A host program (R93). -/
abbrev Program := List Line

/-- A line without a label. -/
def plain (st : Stmt) : Line := { label := none, stmt := st }

/-- `label: statement`. -/
def labelled (l : Label) (st : Stmt) : Line := { label := some l, stmt := st }

/-- The local `s`: a status byte, or the saved HIE. -/
def sVar : Local := 0

/-- The local `c`: the code of the completed phase. -/
def cVar : Local := 1

/-- The local `n`: the polls made. -/
def nVar : Local := 2

/-- The local `m`: the overflow counter as read. -/
def mVar : Local := 3

/-- The local `t`: the hardware counter as read. -/
def tVar : Local := 4

/-- The local `f`: the pending-overflow flag as read. -/
def fVar : Local := 5

/-- The local `ticks`. -/
def ticksVar : Local := 6

/-- The local `buf[i]`. -/
def bufVar (i : Nat) : Local := 16 + i

/-- The label of the abort path. -/
def failLabel : Label := 0

/-- The label of `return BUS_TIMEOUT`. -/
def timeoutLabel : Label := 1

/-- The label after `now_us`'s compensation. -/
def skipLabel : Label := 2

/-- The label `loop` of the `k`-th phase wait. -/
def loopLabel (k : Nat) : Label := 2 * k + 4

/-- The label after the `k`-th phase wait. -/
def doneLabel (k : Nat) : Label := 2 * k + 5

/-- The command byte of a mnemonic (30_encoding R84). -/
def CmdName.byte : CmdName → Byte
  | .nop => 0
  | .start => 1
  | .stop => 2
  | .sendAddr => 3
  | .sendData => 4
  | .recvAck => 5
  | .recvNack => 6

/-- A command mnemonic as the operand of `WR IM_CMD` (R93). -/
def CmdName.expr (c : CmdName) : Expr := .lit c.byte.toNat

/-- A status code's name as an operand (R86, R94). -/
def Code.expr (c : Code) : Expr := .lit c.value.toNat

/-- `ISSUE c` (R94), of any operand of `WR IM_CMD`: a mnemonic's `CmdName.expr` or another expression (R93). -/
def issue (c : Expr) : Program := [plain (.wr .imCmd c)]

/-- `WAITDONE v` with its label (R94). -/
def waitDone (v : Local) (l : Label) : Program :=
  [labelled l (.rd v .imStat), plain (.ifGoto (.eq (.field (.loc v) 7 7) (.lit 0)) l)]

/-- `SENDADDR a, dir` (R94, R85), of any expressions. -/
def sendAddr (a dir : Expr) : Program :=
  plain (.wr .imData (.bor (.shl a 1) dir)) :: issue (CmdName.expr .sendAddr)

/-- `SENDBYTE b` (R94), of any expression. -/
def sendByte (b : Expr) : Program := plain (.wr .imData b) :: issue (CmdName.expr .sendData)

/-- `CLROVF` (R94). -/
def clrOvf : Program := [plain (.wr .tcFlag (.lit 1))]

/-- `EXPECT v, code, L` (R94); `Code.expr` gives a status code's name. -/
def expect (v : Local) (code : Expr) (l : Label) : Program :=
  [plain (.ifGoto (.ne (.field (.loc v) 2 0) code) l)]

/-- `divider(ft, fc)` (42_host R172), on natural numbers with an explicit ceiling; asked for positive frequencies. -/
def divider (ft fc : Nat) : Nat :=
  if fc ≤ 16 * ft then 0
  else min 255 ((fc - 16 * ft + 2 * ft - 1) / (2 * ft))

/-- `configure(f_target, f_core)` (R171). -/
def configure (ft fc : Nat) : Program :=
  if ft = 0 ∨ fc = 0 then [plain .raiseBadConfig]
  else [plain (.wr .imDiv (.lit (divider ft fc)))]

/-- `if POLL_BUDGET ≠ none and n ≥ POLL_BUDGET then return TIMEOUT` (R173). -/
def pollBudgetTest (budget : Option Nat) (onTimeout : Label) : Program :=
  match budget with
  | none => []
  | some b => [plain (.ifGoto (.ge (.loc nVar) (.lit b)) onTimeout)]

/-- The `k`-th `im_wait()` of a procedure (R173): CODE goes to `c`; TIMEOUT goes to `onTimeout`. -/
def imWait (budget : Option Nat) (k : Nat) (onTimeout : Label) : Program :=
  [ plain (.assign nVar (.lit 0)),
    labelled (loopLabel k) (.rd sVar .imStat),
    plain (.ifGoto (.eq (.field (.loc sVar) 7 7) (.lit 1)) (doneLabel k)),
    plain (.assign nVar (.add (.loc nVar) (.lit 1))) ]
  ++ pollBudgetTest budget onTimeout
  ++ [ plain (.goto (loopLabel k)),
       labelled (doneLabel k) (.assign cVar (.field (.loc sVar) 2 0)) ]

/-- The wait for a STOP, whose value is ignored, a TIMEOUT too (R174-R176). -/
def stopAndWait (budget : Option Nat) (k : Nat) : Program :=
  issue (CmdName.expr .stop) ++ imWait budget k (doneLabel k)

/-- `if c ≠ code then return im_abort()` (R175, R176). -/
def abortUnless (code : Code) : Program :=
  [plain (.ifGoto (.ne (.loc cVar) code.expr) failLabel)]

/-- `if c ∉ {START_SENT, RSTART_SENT} then return im_abort()` (R175, R176; 90_conflicts C6). -/
def abortUnlessStarted : Program :=
  [plain (.ifGoto (.both (.ne (.loc cVar) Code.startSent.expr)
    (.ne (.loc cVar) Code.rstartSent.expr)) failLabel)]

/-- One command, its phase wait, and `return BUS_TIMEOUT` on TIMEOUT (R175, R176). -/
def phase (budget : Option Nat) (k : Nat) (c : CmdName) : Program :=
  issue c.expr ++ imWait budget k timeoutLabel

/-- `im_abort()` (R174), at the abort label; its wait is number 0. -/
def imAbort (budget : Option Nat) : Program :=
  (labelled failLabel (.wr .imCmd (CmdName.expr .stop)) :: imWait budget 0 (doneLabel 0))
  ++ [plain (.ret .failure)]

/-- `return BUS_TIMEOUT` (R175, R176): no STOP is issued. -/
def busTimeout : Program := [labelled timeoutLabel (.ret .busTimeout)]

/-- The start and address phases that `write` and `read` begin with (R175, R176). -/
def startAndAddress (budget : Option Nat) (a7 : TargetAddr) (dir : Bool) (expected : Code) : Program :=
  phase budget 1 .start ++ abortUnlessStarted
  ++ sendAddr (.lit a7.toNat) (.lit (truth dir)) ++ imWait budget 2 timeoutLabel ++ abortUnless expected

/-- The data phases of `write`, from wait number `k` on (R175). -/
def sendBytes (budget : Option Nat) (k : Nat) : List Byte → Program
  | [] => []
  | b :: rest =>
    sendByte (.lit b.toNat) ++ imWait budget k timeoutLabel ++ abortUnless .dataAck
    ++ sendBytes budget (k + 1) rest

/-- `im_write(a7, buf, N)` (R175). -/
def imWrite (budget : Option Nat) (a7 : TargetAddr) (buf : List Byte) : Program :=
  startAndAddress budget a7 false .addrWAck
  ++ sendBytes budget 3 buf
  ++ stopAndWait budget (buf.length + 3) ++ [plain (.ret .success)]
  ++ imAbort budget ++ busTimeout

/-- The phases of `read` that ACK, for buffer places `i` to `i + count - 1` (R176). -/
def receiveBytes (budget : Option Nat) (i : Nat) : Nat → Program
  | 0 => []
  | count + 1 =>
    phase budget (i + 3) .recvAck ++ abortUnless .dataAck ++ [plain (.rd (bufVar i) .imData)]
    ++ receiveBytes budget (i + 1) count

/-- `im_read(a7, N)` (R176). -/
def imRead (budget : Option Nat) (a7 : TargetAddr) : Nat → Program
  | 0 => [plain (.ret .failure)]
  | last + 1 =>
    startAndAddress budget a7 true .addrRAck
    ++ receiveBytes budget 0 last
    ++ phase budget (last + 3) .recvNack ++ abortUnless .dataLast
    ++ [plain (.rd (bufVar last) .imData)]
    ++ stopAndWait budget (last + 4)
    ++ [plain (.ret (.bytes ((List.range (last + 1)).map bufVar)))]
    ++ imAbort budget ++ busTimeout

/-- `clock_init()` (R180). -/
def clockInit : Program :=
  [ plain (.csEnter sVar), plain (.storeOvc (.lit 0)) ] ++ clrOvf
  ++ [ plain (.wr .tcCtrl (.lit 3)), plain (.csExit sVar) ]

/-- The boot order (70_reset R234): `configure`, `clock_init`, then HIE is set by host platform code; mapping
the block uncached comes before and is the host platform's. -/
def boot (ft fc : Nat) : List Program := [configure ft fc, clockInit, [plain (.setHie true)]]

/-- `m + 1`, truncated to 64 bits: the compensation of `now_us` (R182 step 5). -/
def compensateExpr : Expr := .trunc 64 (.add (.loc mVar) (.lit 1))

/-- `f[0] = 1 and t ≠ 255` is false: no compensation (R182 step 5). -/
def noCompensationExpr : Expr :=
  .either (.eq (.field (.loc fVar) 0 0) (.lit 0)) (.eq (.loc tVar) (.lit 255))

/-- `trunc_64(m << 8) | zext_64(t)` (R182 step 7). -/
def ticksExpr : Expr := .bor (.trunc 64 (.shl (.loc mVar) 8)) (.zext 64 (.loc tVar))

/-- `now_us()` (R182): OVC, then CNT, then the flag, in a critical section. -/
def nowUs : Program :=
  [ plain (.csEnter sVar),
    plain (.loadOvc mVar),
    plain (.rd tVar .tcCnt),
    plain (.rd fVar .tcFlag),
    plain (.ifGoto noCompensationExpr skipLabel),
    plain (.assign mVar compensateExpr),
    labelled skipLabel (.csExit sVar),
    plain (.assign ticksVar ticksExpr),
    plain (.ret (.value (.shr (.loc ticksVar) 1))) ]

/-- The combine's compensation on 64-bit values (R182 step 5). -/
def compensate (m : Word64) (t f : Byte) : Word64 :=
  if f.getLsbD 0 ∧ t ≠ 255 then m + 1 else m

/-- The tick count of the combine on 64-bit values (R182 step 7, R183). -/
def combineTicks (m : Word64) (t f : Byte) : Word64 :=
  compensate m t f <<< 8 ||| t.setWidth 64

/-- What `now_us` returns for the values it read (R182, R183). -/
def combineMicros (m : Word64) (t f : Byte) : Word64 := combineTicks m t f >>> 1

end Sys2Proof.Machine
end

