-- ==== Sys2Proof/Safety.lean ====
section
/-! DEFINITION. What counts as a good state and a good run: the invariants of 10_state R43, the normal end of
a run (10_state R42), and the named premises of 00_scope R8 (R121, R243, R244). -/

namespace Sys2Proof.Machine

/-- The pending command, if there is one, is legal in the phase context (R106, R115): what makes the
invariants of 10_state R43 inductive. -/
def Im.pendLegal (im : Im) : Bool :=
  match im.pend with
  | none => true
  | some (c, _) => legal im.ctx c

/-- The invariants of 10_state R43, with `pendLegal`. -/
structure Im.Inv (im : Im) : Prop where
  /-- `BUSY = 1` exactly when `PEND ≠ none`. -/
  busy_iff_pend : im.busy = true ↔ im.pend ≠ none
  /-- `BUSY = 1` implies `DONE = 0`. -/
  busy_not_done : im.busy = true → im.done = false
  /-- `HELD = 0` implies `CTX ∈ {NONE, FAILED}`. -/
  released_ctx : im.held = false → im.ctx = .none ∨ im.ctx = .failed
  /-- `CODE = IDLE` implies `HELD = 0`. -/
  idle_released : im.code = .idle → im.held = false
  pend_legal : im.pendLegal = true

/-- The phase context determines which status codes it can stand with: the code of the phase that led to it
(40_i2c R108-R114). -/
def codeFits : Ctx → Code → Bool
  | .none, .idle => true
  | .addr, .startSent | .addr, .rstartSent => true
  | .mt, .addrWAck | .mt, .dataAck => true
  | .mr, .addrRAck | .mr, .dataAck => true
  | .mrEnd, .dataLast => true
  | .failed, .phaseFailed => true
  | .none, _ | .addr, _ | .mt, _ | .mr, _ | .mrEnd, _ | .failed, _ => false

/-- The HOST has run all its programs: no line is left, and no program to begin. An empty HOST, as at reset, and
one with a command still pending count too (DESIGN CHOICE, log entry 22). -/
def hostFinished (s : State) : Bool := (currentLine s).isNone && s.host.todo.isEmpty

/-- The state after `n` steps, while the run goes on. -/
def stateAt (s : State) : Nat → Option State
  | 0 => some s
  | n + 1 =>
    match stateAt s n with
    | none => none
    | some t =>
      match step t with
      | .next u => some u
      | .fault _ => none
      | .refused _ => none

/-- The run from `s` has ended normally after `n` steps: HOST is through, and no state up to there has a fault
recorded, one that a reset has cleared since included (R42, R200). What a normal end is, the spec does not say: HOST
being through is a DESIGN CHOICE (log entry 22). -/
def EndedNormally (s : State) (n : Nat) : Prop :=
  (stateAt s n).any hostFinished = true ∧ ∀ m, m ≤ n → (stateAt s m).any (·.fault.isNone) = true

/-- The next step stops the run: it answers a fault or a refusal. -/
def stopsNow (s : State) : Bool :=
  match step s with
  | .next _ => false
  | .fault _ => true
  | .refused _ => true

/-- The next step is the reset input. -/
def resetsNow (s : State) : Bool := decide (s.nextPick = .reset)

/-- The next step is the ENGINE's, and completes the pending command (R120). -/
def completesNow (s : State) : Bool := s.fault.isNone && decide (s.nextPick = .engine) && s.im.busy

/-- The run is cut short by the next step: it stops at a fault or a refusal, or is reset. -/
def cutShortNow (s : State) : Bool := stopsNow s || resetsNow s

/-- The next step is a TICK step that ticks. -/
def ticksNow (s : State) : Bool := s.fault.isNone && decide (s.nextPick = .tick) && s.tc.run

/-- The next step is a wrap (41_counter R148). -/
def wrapsNow (s : State) : Bool := ticksNow s && decide (s.tc.cnt = 255)

/-- The next step is a HANDLER step that takes the notification. -/
def handlesNow (s : State) : Bool := s.fault.isNone && decide (s.nextPick = .handler) && handlerEnabled s

/-- How many of the `len` steps from position `n` of the run are TICK steps that tick. -/
def ticksIn (s : State) (n : Nat) : Nat → Nat
  | 0 => 0
  | len + 1 => ticksIn s n len + truth ((stateAt s (n + len)).any ticksNow)

/-- `ENGINE_COMPLETES` (R8, R121): every accepted command is completed by an ENGINE step, unless the run is cut
short while it is pending. It excludes the stuck bus (R246), where a command is pending for ever, and no
other run: a run that stops at a fault meets it, so that the fault refutes claims under this premise too
(R200). Only an ENGINE step is a completion. That the premise asks nothing of a command that a reset takes
away is a DESIGN CHOICE (log entry 21): R8 and R121 do not speak of resets. -/
def EngineCompletes (s : State) : Prop :=
  ∀ n t, stateAt s n = some t → t.im.busy = true →
    ∃ len, (stateAt s (n + len)).any (fun u => completesNow u || cutShortNow u) = true

/-- `SCHED_LATENCY` (R244): every wrap that sets OVF is followed by the HANDLER step that clears it before
255 more TICK steps, unless the run is cut short before (DESIGN CHOICE, log entry 21: R244 does not speak of
runs that stop or are reset). -/
def SchedLatency (s : State) : Prop :=
  ∀ n t, stateAt s n = some t → wrapsNow t = true → t.tc.ovf = false →
    ∃ len, ticksIn s (n + 1) len < 255 ∧
      (stateAt s (n + 1 + len)).any (fun u => handlesNow u || cutShortNow u) = true

/-- HOST is in a `now_us` call, about to run the call's line number `k`, counted from 0: the lines about its
position are those of `now_us` (42_host R182), alone or within a longer program (log entry 17). -/
def atNowUsLine (k : Nat) (h : HostCtx) : Bool :=
  decide (k ≤ h.pos) && decide ((h.prog.drop (h.pos - k)).take nowUs.length = nowUs)

/-- The next step is the HOST's, and is line number `k` of a `now_us` call. -/
def nowUsStepNow (k : Nat) (s : State) : Bool :=
  s.fault.isNone && decide (s.nextPick = .host) && atNowUsLine k s.host

/-- The next step is step 3 of a `now_us` call, `RD t, TC_CNT` (R182). -/
def readsCountNow (s : State) : Bool := nowUsStepNow 2 s

/-- The next step is step 4 of a `now_us` call, `RD f, TC_FLAG` (R182). -/
def readsFlagNow (s : State) : Bool := nowUsStepNow 3 s

/-- `SCHED_WINDOW` (R243): in each `now_us` call at most one TICK step falls between its step 3 and its step 4.
Reads of TC_CNT and TC_FLAG outside a `now_us` call do not count. Only HOST steps move HOST, so the first
step 4 after a step 3 is of the same call. -/
def SchedWindow (s : State) : Prop :=
  ∀ n len, (stateAt s n).any readsCountNow = true → (stateAt s (n + 1 + len)).any readsFlagNow = true →
    (∀ j, j < len → (stateAt s (n + 1 + j)).any readsFlagNow = false) →
    ticksIn s (n + 1) len ≤ 1

end Sys2Proof.Machine
end

