-- ==== Sys2Proof/Certificates/Slice0/Obligations.lean ====
section
/-! DEFINITION. The statements for the provers, from the spec's numbered rules. -/

open Sys2Proof Sys2Proof.Machine

/-! ### Reset -/

/-- R45 and R231: every state element at its reset value; `HIE_RESET` is a parameter. -/
def Obligations.ResetGivesEveryElementItsValue : Prop :=
  State.reset.im = { div := 0, data := 0, code := .idle, held := false, busy := false, done := false,
                     ctx := .none, pend := none } ∧
  State.reset.trace = [] ∧
  State.reset.tc = { run := false, ovie := false, cnt := 0, ovf := false, ps := 0 } ∧
  State.reset.hostside.hie = Config.hieReset ∧ State.reset.hostside.ovc = none ∧
  State.reset.fault = none ∧
  linesReleased State.reset.im = true ∧ irqOvf State.reset.tc = false

/-- The invariants this file states of every step hold at reset. -/
def Obligations.ResetMeetsTheInvariants : Prop :=
  State.reset.im.Inv ∧ codeFits State.reset.im.ctx State.reset.im.code = true ∧
  localsWf State.reset.host.locals = true

/-- R230, with log entry 11: in every state, a faulted one too, the reset input gives every element its reset
value, FAULT included; the HOST agent and the inputs, which are not state elements of the spec, stay (the model's choice). -/
def Obligations.AssertedResetGivesResetValues : Prop :=
  ∀ s : State, s.nextPick = .reset →
    ∃ t, step s = .next t ∧ t.im = State.reset.im ∧ t.tc = State.reset.tc ∧
      t.hostside = State.reset.hostside ∧ t.trace = [] ∧ t.fault = none ∧
      t.host = s.host ∧ t.inputs = s.pickTaken.inputs

/-! ### Words and instructions -/

/-- Words written out from R80, R81 and R84 decode to the accesses they stand for. -/
def Obligations.WordsOfTheTableDecode : Prop :=
  decode 0b0000_0000_0000#12 = .instr .rdImDiv ∧
  decode 0b1000_0000_1100#12 = .instr (.wrImDiv 12) ∧
  decode 0b1001_0101_0001#12 = .instr (.wrImData 0x51) ∧
  decode 0b1010_0000_0000#12 = .instr .cmdNop ∧
  decode 0b1010_0000_0011#12 = .instr .cmdSendAddr ∧
  decode 0b1010_0000_0110#12 = .instr .cmdRecvNack ∧
  decode 0b1010_0000_0111#12 = .rejected (.reservedCommand 7) ∧
  decode 0b0011_0000_0000#12 = .instr .rdImStat ∧
  decode 0b1100_0000_0011#12 = .instr (.wrTcCtrl 3) ∧
  decode 0b0110_0000_0000#12 = .instr .rdTcFlag ∧
  decode 0b1111_0001_0010#12 = .instr (.wrRsvd7 0x12)

/-- Decoding what was encoded gives the instruction back, for every instruction and every operand. -/
def Obligations.DecodeOfEncodeIsTheInstruction : Prop :=
  ∀ i : Instr, i.wf = true → decode (encode i) = .instr i

/-- R80, R92 and R90 item 5: the encoder gives back the decoded word, but for a read's ignored WDATA. -/
def Obligations.EncodeOfDecodeIsTheWord : Prop :=
  ∀ (w : AccessWord) (i : Instr), decode w = .instr i →
    encode i = if wordWe w then w else accessWord false (wordOff w) 0

/-- R89 items 1 and 2, R92: the decoder rejects the reserved command words and no other. -/
def Obligations.DecoderRejectsOnlyReservedCommands : Prop :=
  ∀ w : AccessWord, (∃ e, decode w = .rejected e) ↔
    wordWe w = true ∧ wordOff w = 2 ∧ ((wordData w).toNat / 8 ≠ 0 ∨ (wordData w).toNat % 8 = 7)

/-- R81 and R92: the offset of an access word selects the access; complete for all 16 combinations. -/
def Obligations.AccessWordSelectsByWriteBitAndOffset : Prop :=
  ∀ (we : Bool) (off : Offset) (d : Byte),
    decode (accessWord we off d) =
      if we then decodeWrite d (regAt off) else .instr (decodeRead (regAt off))

/-! ### The HOST's steps -/

/-- When HOST is picked and its line presents a word that decodes to `i`, the step is `exec i` of the state
with the pick used up; around it HOST goes on to its next line, unless a fault was raised (R80, R92, R170). -/
def Obligations.StepRunsTheDecodedAccess : Prop :=
  ∀ (s : State) (label : Option Label) (w : AccessWord) (i : Instr),
    s.fault = none → s.nextPick = .host → currentLine s = some ⟨label, .access 8 w⟩ →
    decode w = .instr i →
    step s = match exec i s.pickTaken with
      | .next t => .next (if t.fault = none then t.advance else t)
      | .fault r => .fault r
      | .refused r => .refused r

/-- `RD v, REG` is the read of REG, whose RDATA goes to the local `v` (R93). -/
def Obligations.ReadLineAnswersIntoItsLocal : Prop :=
  ∀ (s : State) (label : Option Label) (v : Local) (r : Reg),
    s.fault = none → s.nextPick = .host → currentLine s = some ⟨label, .rd v r⟩ →
    ∃ t u, exec (decodeRead r) s.pickTaken = .next t ∧ step s = .next u ∧
      u.localVal v = t.rdata.toNat ∧ u.host.pos = s.host.pos + 1 ∧
      u.im = t.im ∧ u.tc = t.tc ∧ u.hostside = t.hostside ∧ u.trace = t.trace ∧ u.fault = none

/-- `WR REG, e` is the write of the 8-bit value of `e` (R93): its word is WE, the offset, the value. That a
value that does not fit a byte is taken modulo 256 is the model's choice (log entry 18). -/
def Obligations.WriteLinePresentsTheExpressionsByte : Prop :=
  ∀ (s : State) (label : Option Label) (r : Reg) (e : Expr),
    s.fault = none → s.nextPick = .host → currentLine s = some ⟨label, .wr r e⟩ →
    step s = hostAccess 8 (accessWord true (regOffset r) (BitVec.ofNat 8 (eval s.pickTaken e))) none s.pickTaken

/-- R66, R200: a host access of a width other than 8 raises WIDTH, whatever its word, in every state. That the
raising step changes nothing else, HOST's position included, is the model's choice (log entry 6). -/
def Obligations.OtherWidthsRaiseWidth : Prop :=
  ∀ (n : Nat) (w : AccessWord) (dst : Option Local) (s : State), n ≠ 8 →
    hostAccess n w dst s = .next { s with fault := s.fault.or (some .width) }

/-- R90, R106 and R200: a reserved command raises RESERVED_CMD in every state, a busy one too. That the raising
step changes nothing else, HOST's position included, is the model's choice (log entry 6). -/
def Obligations.ReservedCommandFaultsBeforeBusy : Prop :=
  ∀ (d : Byte) (dst : Option Local) (s : State), (d.toNat / 8 ≠ 0 ∨ d.toNat % 8 = 7) →
    hostAccess 8 (accessWord true 2 d) dst s = .next { s with fault := s.fault.or (some .reservedCmd) }

/-- R201: every host access of the right width completes: its step is a next state. -/
def Obligations.EveryAccessOfTheRightWidthCompletes : Prop :=
  ∀ (w : AccessWord) (dst : Option Local) (s : State), ∃ t, hostAccess 8 w dst s = .next t

/-- R42 and R200: FAULT takes the first reason and keeps it. Log entry 6: a recorded fault is the outcome of
every step but a reset (R230). -/
def Obligations.FirstFaultIsKeptAndStopsTheRun : Prop :=
  (∀ (s : State) (r : Fault), s.fault = none → (s.raise r).fault = some r) ∧
  (∀ (s : State) (q r : Fault), s.fault = some q → (s.raise r).fault = some q) ∧
  (∀ (s : State) (q : Fault), s.fault = some q → s.nextPick ≠ .reset → step s = .fault q)

/-! ### Reads -/

/-- R101, R105, R116, R118, with the status codes of R86: what the reads of IM's registers and of offset 7
return, in every state; nothing else changes. -/
def Obligations.ReadsOfImReturnTheRegister : Prop :=
  decode 0x000#12 = .instr .rdImDiv ∧ decode 0x200#12 = .instr .rdImCmd ∧
  decode 0x300#12 = .instr .rdImStat ∧ decode 0x700#12 = .instr .rdRsvd7 ∧
  Code.idle.value = 0 ∧ Code.startSent.value = 1 ∧ Code.rstartSent.value = 2 ∧ Code.addrWAck.value = 3 ∧
  Code.addrRAck.value = 4 ∧ Code.dataAck.value = 5 ∧ Code.dataLast.value = 6 ∧ Code.phaseFailed.value = 7 ∧
  ∀ s : State,
    exec .rdImDiv s = .next { s with rdata := s.im.div } ∧
    exec .rdImCmd s = .next { s with rdata := 0 } ∧
    exec .rdRsvd7 s = .next { s with rdata := 0 } ∧
    exec .rdImStat s = .next (s.ret (BitVec.ofNat 8
      (128 * s.im.done.toNat + 64 * s.im.busy.toNat + 32 * s.im.held.toNat + s.im.code.value.toNat)))

/-- R103: RD IM_DATA returns DATA, and a free byte while BUSY; DATA does not change. That the free byte is
`anyByte` of the counter of draws, which goes up by one, is the model's choice (log entry 5); the statement
holds whatever `anyByte` is. -/
def Obligations.ReadOfDataIsFreeOnlyWhileBusy : Prop :=
  decode 0x100#12 = .instr .rdImData ∧
  (∀ s : State, s.im.busy = false → exec .rdImData s = .next { s with rdata := s.im.data }) ∧
  (∀ s : State, s.im.busy = true →
    exec .rdImData s = .next { s with
      rdata := Config.anyByte s.inputs.draws
      inputs := { s.inputs with draws := s.inputs.draws + 1 } })

/-- R140, R142, R144: what the reads of TC's registers return, in every state; nothing else changes. -/
def Obligations.ReadsOfTcReturnTheRegister : Prop :=
  decode 0x400#12 = .instr .rdTcCtrl ∧ decode 0x500#12 = .instr .rdTcCnt ∧
  decode 0x600#12 = .instr .rdTcFlag ∧
  ∀ s : State,
    exec .rdTcCtrl s = .next { s with rdata := BitVec.ofNat 8 (2 * s.tc.ovie.toNat + s.tc.run.toNat) } ∧
    exec .rdTcCnt s = .next { s with rdata := s.tc.cnt } ∧
    exec .rdTcFlag s = .next { s with rdata := BitVec.ofNat 8 s.tc.ovf.toNat }

/-- R67: a read changes RDATA alone, and repeated with no step between it returns the same value and leaves
the same state; the one exception is IM_DATA while busy. -/
def Obligations.ReadsAreIdempotent : Prop :=
  ∀ (i : Instr) (s t : State),
    i ∈ [Instr.rdImDiv, .rdImData, .rdImCmd, .rdImStat, .rdTcCtrl, .rdTcCnt, .rdTcFlag, .rdRsvd7] →
    (i = .rdImData → s.im.busy = false) →
    exec i s = .next t → t = { s with rdata := t.rdata } ∧ exec i t = .next t

/-! ### Writes -/

/-- R102: every value is stored in DIV, in every state, and nothing else changes. -/
def Obligations.WriteOfDivStoresEveryValue : Prop :=
  ∀ (d : Byte) (s : State),
    decode (accessWord true 0 d) = .instr (.wrImDiv d) ∧
    exec (.wrImDiv d) s = .next { s with im := { s.im with div := d } }

/-- R104: WR IM_DATA stores the byte while `BUSY = 0`, and raises BUSY_WRITE while `BUSY = 1`. -/
def Obligations.WriteOfDataStoresUnlessBusy : Prop :=
  ∀ (d : Byte) (s : State),
    decode (accessWord true 1 d) = .instr (.wrImData d) ∧
    (s.im.busy = false → exec (.wrImData d) s = .next { s with im := { s.im with data := d } }) ∧
    (s.im.busy = true →
      exec (.wrImData d) s = .next { s with fault := s.fault.or (some .busyWrite) })

/-- R107, R117, R119, R143: NOP and the writes to IM_STAT, offset 7 and TC_CNT change nothing, in any state. -/
def Obligations.NopAndIgnoredWritesChangeNothing : Prop :=
  decode 0xA00#12 = .instr .cmdNop ∧
  ∀ (d : Byte) (s : State),
    decode (accessWord true 3 d) = .instr (.wrImStat d) ∧
    decode (accessWord true 7 d) = .instr (.wrRsvd7 d) ∧
    decode (accessWord true 5 d) = .instr (.wrTcCnt d) ∧
    exec .cmdNop s = .next s ∧ exec (.wrImStat d) s = .next s ∧
    exec (.wrRsvd7 d) s = .next s ∧ exec (.wrTcCnt d) s = .next s

/-- R141: RUN and OVIE take bits 0 and 1, the other bits are ignored, OVF and CNT stay, and setting OVIE
with `OVF = 1` asserts the request at once. -/
def Obligations.WriteOfTcCtrlSetsRunAndOvie : Prop :=
  ∀ (d : Byte) (s : State),
    decode (accessWord true 4 d) = .instr (.wrTcCtrl d) ∧
    exec (.wrTcCtrl d) s = .next { s with
      tc := { s.tc with run := decide (d.toNat % 2 = 1), ovie := decide (d.toNat / 2 % 2 = 1) } } ∧
    (∀ t, exec (.wrTcCtrl d) s = .next t → s.tc.ovf = true → irqOvf t.tc = decide (d.toNat / 2 % 2 = 1))

/-- R145: a 1 in bit 0 clears OVF, a 0 has no effect; bits 7:1 are ignored. -/
def Obligations.WriteOfTcFlagClearsByOne : Prop :=
  ∀ (d : Byte) (s : State),
    decode (accessWord true 6 d) = .instr (.wrTcFlag d) ∧
    (d.toNat % 2 = 1 → exec (.wrTcFlag d) s = .next { s with tc := { s.tc with ovf := false } }) ∧
    (d.toNat % 2 = 0 → exec (.wrTcFlag d) s = .next s)

/-! ### Phase commands -/

/-- R115: which command is legal in which phase context. -/
def Obligations.LegalityTableOfCommands : Prop :=
  ∀ (ctx : Ctx) (c : Cmd), legal ctx c = true ↔
    c = .start ∨ c = .stop ∨ (c = .sendAddr ∧ ctx = .addr) ∨ (c = .sendData ∧ ctx = .mt) ∨
    (c = .recvAck ∧ ctx = .mr) ∨ (c = .recvNack ∧ ctx = .mr)

/-- R114: a command that R115 marks illegal in the context completes at once with PHASE_FAILED: no bus
activity, no trace event; HELD, DATA, BUSY and PEND as they are. -/
def Obligations.IllegalInContextCommandFailsAtOnce : Prop :=
  ∀ (i : Instr) (c : Cmd) (s : State),
    (i, c) ∈ [(Instr.cmdSendAddr, Cmd.sendAddr), (.cmdSendData, .sendData), (.cmdRecvAck, .recvAck),
      (.cmdRecvNack, .recvNack)] →
    s.im.busy = false → legal s.im.ctx c = false →
    exec i s = .next { s with im := { s.im with code := .phaseFailed, ctx := .failed, done := true } }

/-- R122: a non-NOP command written while `BUSY = 1` raises BUSY_WRITE, whatever the context; the pending
command stays. That R106's assignments after the raise are not performed, and nothing else changes, is the
model's choice (log entry 6). -/
def Obligations.CommandWhileBusyRaisesBusyWrite : Prop :=
  ∀ (i : Instr) (s : State),
    i ∈ [Instr.cmdStart, .cmdStop, .cmdSendAddr, .cmdSendData, .cmdRecvAck, .cmdRecvNack] →
    s.im.busy = true → exec i s = .next { s with fault := s.fault.or (some .busyWrite) }

/-- R108: START, accepted in every context, and completed by the ENGINE with the bus's answer. -/
def Obligations.StartIssuesStartOrRepeatedStart : Prop :=
  decode 0xA01#12 = .instr .cmdStart ∧
  (∀ s : State, s.im.busy = false →
    exec .cmdStart s = .next { s with
      im := { s.im with done := false, busy := true, pend := some (.start, s.im.data) } }) ∧
  (∀ (s : State) (b : Byte), s.im.busy = true → s.im.pend = some (.start, b) →
    ∃ t, engineStep s = .next t ∧
      t.trace = s.trace ++ [if s.im.held then .rstart s.startAnswer else .start s.startAnswer] ∧
      (s.startAnswer = .ok → t.im = { s.im with
        code := if s.im.held then .rstartSent else .startSent
        ctx := .addr, held := true, busy := false, done := true, pend := none }) ∧
      (s.startAnswer = .err → t.im = { s.im with
        code := .phaseFailed, ctx := .failed, held := true, busy := false, done := true, pend := none }) ∧
      t.tc = s.tc ∧ t.hostside = s.hostside ∧ t.host = s.host ∧ t.rdata = s.rdata ∧ t.fault = s.fault)

/-- R109: STOP, accepted in every context; the ENGINE puts a stop on the bus only if it is held, and a stop
cannot fail. -/
def Obligations.StopReleasesTheBus : Prop :=
  decode 0xA02#12 = .instr .cmdStop ∧
  (∀ s : State, s.im.busy = false →
    exec .cmdStop s = .next { s with
      im := { s.im with done := false, busy := true, pend := some (.stop, s.im.data) } }) ∧
  (∀ (s : State) (b : Byte), s.im.busy = true → s.im.pend = some (.stop, b) →
    engineStep s = .next { s with
      im := { s.im with code := .idle, ctx := .none, held := false, busy := false, done := true, pend := none }
      trace := if s.im.held then s.trace ++ [.stop] else s.trace })

/-- R110: SEND_ADDR, accepted in context ADDR; the ENGINE sends the latched byte's address and direction. -/
def Obligations.SendAddrSendsTheLatchedAddress : Prop :=
  decode 0xA03#12 = .instr .cmdSendAddr ∧
  (∀ s : State, s.im.busy = false → s.im.ctx = .addr →
    exec .cmdSendAddr s = .next { s with
      im := { s.im with done := false, busy := true, pend := some (.sendAddr, s.im.data) } }) ∧
  (∀ (s : State) (a7 : TargetAddr) (dir : Bool),
    s.im.busy = true → s.im.pend = some (.sendAddr, a7 ++ BitVec.ofBool dir) →
    ∃ t, engineStep s = .next t ∧
      t.trace = s.trace ++ [.addr a7 dir (s.addrAnswer a7 dir)] ∧
      (s.addrAnswer a7 dir = .ack → t.im = { s.im with
        code := if dir then .addrRAck else .addrWAck
        ctx := if dir then .mr else .mt
        busy := false, done := true, pend := none }) ∧
      (s.addrAnswer a7 dir ≠ .ack → t.im = { s.im with
        code := .phaseFailed, ctx := .failed, busy := false, done := true, pend := none }) ∧
      t.tc = s.tc ∧ t.hostside = s.hostside ∧ t.host = s.host ∧ t.rdata = s.rdata ∧ t.fault = s.fault)

/-- R111: SEND_DATA, accepted in context MT; the ENGINE sends the latched byte. -/
def Obligations.SendDataSendsTheLatchedByte : Prop :=
  decode 0xA04#12 = .instr .cmdSendData ∧
  (∀ s : State, s.im.busy = false → s.im.ctx = .mt →
    exec .cmdSendData s = .next { s with
      im := { s.im with done := false, busy := true, pend := some (.sendData, s.im.data) } }) ∧
  (∀ (s : State) (b : Byte), s.im.busy = true → s.im.pend = some (.sendData, b) →
    ∃ t, engineStep s = .next t ∧
      t.trace = s.trace ++ [.tx b (s.txAnswer b)] ∧
      (s.txAnswer b = .ack → t.im = { s.im with
        code := .dataAck, busy := false, done := true, pend := none }) ∧
      (s.txAnswer b ≠ .ack → t.im = { s.im with
        code := .phaseFailed, ctx := .failed, busy := false, done := true, pend := none }) ∧
      t.tc = s.tc ∧ t.hostside = s.hostside ∧ t.host = s.host ∧ t.rdata = s.rdata ∧ t.fault = s.fault)

/-- R112: RECV_ACK, accepted in context MR; the byte received goes to DATA and is ACKed; after an error DATA
is a free byte. That it is `anyByte` of the counter of draws is the model's choice (log entry 5); the
statement holds whatever `anyByte` is. -/
def Obligations.RecvAckReceivesAByteAndAcks : Prop :=
  decode 0xA05#12 = .instr .cmdRecvAck ∧
  (∀ s : State, s.im.busy = false → s.im.ctx = .mr →
    exec .cmdRecvAck s = .next { s with
      im := { s.im with done := false, busy := true, pend := some (.recvAck, s.im.data) } }) ∧
  (∀ (s : State) (b : Byte), s.im.busy = true → s.im.pend = some (.recvAck, b) →
    ∃ t, engineStep s = .next t ∧
      (∀ v, s.rxAnswer = some v →
        t.im = { s.im with data := v, code := .dataAck, busy := false, done := true, pend := none } ∧
        t.trace = s.trace ++ [.rx (some v) .ack]) ∧
      (s.rxAnswer = none →
        t.im = { s.im with
          data := Config.anyByte s.rxTaken.inputs.draws
          code := .phaseFailed, ctx := .failed, busy := false, done := true, pend := none } ∧
        t.trace = s.trace ++ [.rx none .err]) ∧
      t.tc = s.tc ∧ t.hostside = s.hostside ∧ t.host = s.host ∧ t.rdata = s.rdata ∧ t.fault = s.fault)

/-- R113: RECV_NACK, accepted in context MR; the byte received is the last one and is NACKed; after an error
DATA is a free byte. That it is `anyByte` of the counter of draws is the model's choice (log entry 5); the
statement holds whatever `anyByte` is. -/
def Obligations.RecvNackReceivesTheLastByte : Prop :=
  decode 0xA06#12 = .instr .cmdRecvNack ∧
  (∀ s : State, s.im.busy = false → s.im.ctx = .mr →
    exec .cmdRecvNack s = .next { s with
      im := { s.im with done := false, busy := true, pend := some (.recvNack, s.im.data) } }) ∧
  (∀ (s : State) (b : Byte), s.im.busy = true → s.im.pend = some (.recvNack, b) →
    ∃ t, engineStep s = .next t ∧
      (∀ v, s.rxAnswer = some v →
        t.im = { s.im with
          data := v, code := .dataLast, ctx := .mrEnd, busy := false, done := true, pend := none } ∧
        t.trace = s.trace ++ [.rx (some v) .nack]) ∧
      (s.rxAnswer = none →
        t.im = { s.im with
          data := Config.anyByte s.rxTaken.inputs.draws
          code := .phaseFailed, ctx := .failed, busy := false, done := true, pend := none } ∧
        t.trace = s.trace ++ [.rx none .err]) ∧
      t.tc = s.tc ∧ t.hostside = s.hostside ∧ t.host = s.host ∧ t.rdata = s.rdata ∧ t.fault = s.fault)

/-- R33, with log entry 4: listed answers of the bus are taken oldest first, each by its own kind of phase; a
free value answers where none is listed. -/
def Obligations.ListedBusAnswersAreTakenInOrder : Prop :=
  (∀ (s : State) (a : StartAns) (rest : List StartAns), s.inputs.starts = a :: rest →
    s.startAnswer = a ∧ s.startTaken = { s with inputs := { s.inputs with starts := rest } }) ∧
  (∀ (s : State) (a : AckAns) (rest : List AckAns) (a7 : TargetAddr) (dir : Bool),
    s.inputs.addrs = a :: rest →
    s.addrAnswer a7 dir = a ∧ s.addrTaken = { s with inputs := { s.inputs with addrs := rest } }) ∧
  (∀ (s : State) (a : AckAns) (rest : List AckAns) (b : Byte), s.inputs.txs = a :: rest →
    s.txAnswer b = a ∧ s.txTaken = { s with inputs := { s.inputs with txs := rest } }) ∧
  (∀ (s : State) (a : Option Byte) (rest : List (Option Byte)), s.inputs.rxs = a :: rest →
    s.rxAnswer = a ∧ s.rxTaken = { s with inputs := { s.inputs with rxs := rest } })

/-! ### The ENGINE, and rules of the whole of IM -/

/-- R120: the ENGINE acts exactly when `BUSY = 1`, and its step ends in `finish()`. The model's own: an ENGINE
picked while it is not enabled does nothing (log entry 3), and with nothing pending, which no run reaches, it
only finishes (log entry 13). -/
def Obligations.EngineStepEndsInFinish : Prop :=
  (∀ s : State, s.im.busy = false → engineStep s = .next s) ∧
  (∀ s : State, s.im.busy = true →
    ∃ t, engineStep s = .next t ∧ t.im.busy = false ∧ t.im.done = true ∧ t.im.pend = none ∧
      t.im.div = s.im.div)

/-- R124: an ENGINE step appends one event, and none for a STOP with `HELD = 0`; the other agents append
none; a Stop event is appended exactly by a STOP's completion with `HELD = 1`. -/
def Obligations.TraceGrowsByOneEventPerCompletion : Prop :=
  (∀ (s t : State) (c : Cmd) (b : Byte), s.im.busy = true → s.im.pend = some (c, b) →
    engineStep s = .next t →
    (c = .stop ∧ s.im.held = false → t.trace = s.trace) ∧
    (¬(c = .stop ∧ s.im.held = false) → ∃ e, t.trace = s.trace ++ [e]) ∧
    t.trace.count .stop = s.trace.count .stop + (if c = .stop ∧ s.im.held = true then 1 else 0)) ∧
  (∀ s t : State, step s = .next t → s.nextPick ≠ .engine → s.nextPick ≠ .reset → t.trace = s.trace)

/-- R43: the invariants of IM, kept by every step; and `CTX = FAILED` with `HELD = 0` comes only from the
illegal-in-context completion of R114. -/
def Obligations.StepKeepsTheInvariantsOfIm : Prop :=
  ∀ s t : State, s.im.Inv → step s = .next t →
    t.im.Inv ∧
    (t.im.ctx = .failed → t.im.held = false →
      (s.im.ctx = .failed ∧ s.im.held = false) ∨ (s.nextPick = .host ∧ t.im = s.im.illegalComplete))

/-- The phase context and the status code stay together as R108-R114 set them, in every step. -/
def Obligations.StepKeepsCodeFittingContext : Prop :=
  ∀ s t : State, s.im.Inv → codeFits s.im.ctx s.im.code = true → step s = .next t →
    codeFits t.im.ctx t.im.code = true

/-- R27 and D10: HELD is set by every completion of a START, a failed one too, and cleared by every
completion of a STOP, by nothing else (and by reset). -/
def Obligations.HeldIsSetByStartAndClearedByStop : Prop :=
  ∀ s t : State, step s = .next t →
    (∀ b, s.nextPick = .engine → s.im.busy = true → s.im.pend = some (.start, b) → t.im.held = true) ∧
    (∀ b, s.nextPick = .engine → s.im.busy = true → s.im.pend = some (.stop, b) → t.im.held = false) ∧
    (s.im.held = false → t.im.held = true →
      s.nextPick = .engine ∧ s.im.busy = true ∧ ∃ b, s.im.pend = some (.start, b)) ∧
    (s.im.held = true → t.im.held = false →
      s.nextPick = .reset ∨
      (s.nextPick = .engine ∧ s.im.busy = true ∧ ∃ b, s.im.pend = some (.stop, b)))

/-- R26, R28, R31 and R122: while a command is pending, no step but the ENGINE's (and reset) changes
anything of IM but the divider. -/
def Obligations.PendingCommandWaitsForTheEngine : Prop :=
  ∀ s t : State, step s = .next t → s.im.busy = true → s.nextPick ≠ .engine → s.nextPick ≠ .reset →
    t.im = { s.im with div := t.im.div }

/-- IM does not see the counter: an ENGINE step is the same whatever TC holds (R1: independent sub-blocks). -/
def Obligations.EngineDoesNotSeeTheCounter : Prop :=
  ∀ (s t : State) (tc : Tc), engineStep s = .next t →
    engineStep { s with tc := tc } = .next { t with tc := tc }

/-! ### The counter, its tick and the notification -/

/-- R146, R148: a tick adds 1, and wraps from 255 to 0 with OVF set in the same step; with `RUN = 0` no
tick. That a TICK picked while it is not enabled does nothing is the model's choice (log entry 3). -/
def Obligations.TickCountsAndWrapsWithOvf : Prop :=
  ∀ s : State,
    (s.tc.run = true → s.tc.cnt = 255 →
      tickStep s = .next { s with tc := { s.tc with cnt := 0, ovf := true } }) ∧
    (s.tc.run = true → s.tc.cnt ≠ 255 →
      tickStep s = .next { s with tc := { s.tc with cnt := s.tc.cnt + 1 } }) ∧
    (s.tc.run = false → tickStep s = .next s)

/-- R147: no step shows the wrapped count without OVF, or a new OVF without the wrapped count. -/
def Obligations.WrapAndOverflowAreVisibleTogether : Prop :=
  ∀ s t : State, step s = .next t →
    (s.tc.ovf = false → t.tc.ovf = true → s.tc.cnt = 255 ∧ t.tc.cnt = 0) ∧
    (s.tc.cnt = 255 → t.tc.cnt = 0 → s.nextPick ≠ .reset → t.tc.ovf = true)

/-- R154: CNT changes only by a tick, which adds 1 modulo 256 (and by reset). -/
def Obligations.CounterChangesOnlyByTicks : Prop :=
  ∀ s t : State, step s = .next t → s.nextPick ≠ .reset →
    t.tc.cnt = s.tc.cnt ∨
    (s.nextPick = .tick ∧ s.tc.run = true ∧ t.tc.cnt.toNat = (s.tc.cnt.toNat + 1) % 256)

/-- R151 and R205: the HANDLER's step, where it is enabled, and nothing where it is not. The model's own: that
the increment after the raise is not performed (log entry 6), and that a HANDLER picked while it is not
enabled does nothing (log entry 3). -/
def Obligations.HandlerClearsOvfAndCountsTheWrap : Prop :=
  (∀ (s : State) (n : Word64), s.tc.ovf = true → s.tc.ovie = true → s.hostside.hie = true →
    s.hostside.ovc = some n →
    ∃ n', handlerStep s = .next { s with
        tc := { s.tc with ovf := false }, hostside := { s.hostside with ovc := some n' } } ∧
      n'.toNat = (n.toNat + 1) % 2 ^ 64) ∧
  (∀ s : State, s.tc.ovf = true → s.tc.ovie = true → s.hostside.hie = true → s.hostside.ovc = none →
    handlerStep s = .next { s with
      tc := { s.tc with ovf := false }, fault := s.fault.or (some .ovcUnwritten) }) ∧
  (∀ s : State, s.tc.ovf = false ∨ s.tc.ovie = false ∨ s.hostside.hie = false → handlerStep s = .next s)

/-- R41 and R151: OVC changes only by the HANDLER and by the host's own `OVC <- e` (and by reset). -/
def Obligations.OvcIsWrittenOnlyByHandlerAndStore : Prop :=
  ∀ s t : State, step s = .next t → t.hostside.ovc ≠ s.hostside.ovc →
    s.nextPick = .handler ∨ s.nextPick = .reset ∨
    (s.nextPick = .host ∧ ∃ label e, currentLine s = some ⟨label, .storeOvc e⟩)

/-- R40: HIE changes only by HOST's critical-section steps and host platform code (and by reset). -/
def Obligations.HieChangesOnlyByHostSteps : Prop :=
  ∀ s t : State, step s = .next t → t.hostside.hie ≠ s.hostside.hie →
    s.nextPick = .reset ∨
    (s.nextPick = .host ∧ ∃ label, (∃ v, currentLine s = some ⟨label, .csEnter v⟩) ∨
      (∃ v, currentLine s = some ⟨label, .csExit v⟩) ∨ (∃ b, currentLine s = some ⟨label, .setHie b⟩))

/-- R178, R179: CS_ENTER saves HIE and clears it; CS_EXIT restores the saved bit, not 1. -/
def Obligations.CriticalSectionRestoresThePriorState : Prop :=
  ∀ (s : State) (v : Local),
    (∃ t, execStmt (.csEnter v) s = .next t ∧ t.hostside = { s.hostside with hie := false } ∧
      t.localVal v = s.hostside.hie.toNat ∧ t.im = s.im ∧ t.tc = s.tc ∧ t.trace = s.trace) ∧
    (∀ u : State, u.localVal v = s.hostside.hie.toNat →
      ∃ t, execStmt (.csExit v) u = .next t ∧ t.hostside = { u.hostside with hie := s.hostside.hie } ∧
        t.im = u.im ∧ t.tc = u.tc ∧ t.trace = u.trace)

/-- R70, R41, R182: an OVC access with `HIE = 1` is OVC_UNGUARDED; a guarded load of an unwritten OVC is
OVC_UNWRITTEN; else the 64-bit value is loaded or stored whole. The model's own: the order of the two checks
(log entry 12), that a raising step changes nothing else, HOST's position included (log entry 6), and that a
store takes the low 64 bits of its expression (log entry 18). -/
def Obligations.OvcAccessIsGuarded : Prop :=
  (∀ (s : State) (v : Local) (e : Expr), s.hostside.hie = true →
    execStmt (.loadOvc v) s = .next { s with fault := s.fault.or (some .ovcUnguarded) } ∧
    execStmt (.storeOvc e) s = .next { s with fault := s.fault.or (some .ovcUnguarded) }) ∧
  (∀ (s : State) (v : Local), s.hostside.hie = false → s.hostside.ovc = none →
    execStmt (.loadOvc v) s = .next { s with fault := s.fault.or (some .ovcUnwritten) }) ∧
  (∀ (s : State) (v : Local) (n : Word64), s.hostside.hie = false → s.hostside.ovc = some n →
    ∃ t, execStmt (.loadOvc v) s = .next t ∧ t.localVal v = n.toNat ∧ t.hostside = s.hostside) ∧
  (∀ (s : State) (e : Expr), s.hostside.hie = false →
    ∃ t n, execStmt (.storeOvc e) s = .next t ∧ t.hostside = { s.hostside with ovc := some n } ∧
      n.toNat = eval s e % 2 ^ 64)

/-- R39, R150, R205: the request is OVF and OVIE together; the HANDLER is enabled when HIE is 1 too. -/
def Obligations.NotificationIsPendingEnabledAndUnmasked : Prop :=
  ∀ s : State,
    (irqOvf s.tc = true ↔ s.tc.ovf = true ∧ s.tc.ovie = true) ∧
    (handlerEnabled s = true ↔ s.tc.ovf = true ∧ s.tc.ovie = true ∧ s.hostside.hie = true)

/-- R151, R207 and R148: TICK and HANDLER steps leave IM, the HOST agent, TRACE and the read port alone. -/
def Obligations.TickAndHandlerLeaveImAndHostAlone : Prop :=
  ∀ s t : State, step s = .next t → s.nextPick = .tick ∨ s.nextPick = .handler →
    t.im = s.im ∧ t.host = s.host ∧ t.trace = s.trace ∧ t.rdata = s.rdata ∧ t.hostside.hie = s.hostside.hie

/-! ### Frames of the accesses -/

/-- The reads change RDATA alone (IM_DATA while busy also draws a free value). -/
def Obligations.ReadsChangeNothingOfTheBlock : Prop :=
  ∀ (i : Instr) (s t : State),
    i ∈ [Instr.rdImDiv, .rdImData, .rdImCmd, .rdImStat, .rdTcCtrl, .rdTcCnt, .rdTcFlag, .rdRsvd7] →
    exec i s = .next t →
    t.im = s.im ∧ t.tc = s.tc ∧ t.hostside = s.hostside ∧ t.trace = s.trace ∧ t.fault = s.fault ∧
    t.host = s.host ∧ t.inputs = { s.inputs with draws := t.inputs.draws }

/-- The accesses to IM and offset 7 that write leave TC, the host's items, TRACE, RDATA and the inputs alone;
none but WR IM_DIV changes DIV, none but WR IM_DATA changes DATA, none changes HELD; none but the six commands
changes CODE, BUSY, DONE, CTX or PEND; FAULT changes only by those six and WR IM_DATA, and only while busy. -/
def Obligations.ImWritesTouchOnlyTheirRegister : Prop :=
  ∀ (i : Instr) (s t : State),
    (i ∈ [Instr.cmdNop, .cmdStart, .cmdStop, .cmdSendAddr, .cmdSendData, .cmdRecvAck, .cmdRecvNack] ∨
      ∃ d, i = .wrImDiv d ∨ i = .wrImData d ∨ i = .wrImStat d ∨ i = .wrRsvd7 d) →
    exec i s = .next t →
    t.tc = s.tc ∧ t.hostside = s.hostside ∧ t.trace = s.trace ∧ t.rdata = s.rdata ∧ t.host = s.host ∧
    t.inputs = s.inputs ∧ t.im.held = s.im.held ∧
    ((∀ d, i ≠ .wrImDiv d) → t.im.div = s.im.div) ∧ ((∀ d, i ≠ .wrImData d) → t.im.data = s.im.data) ∧
    (i ∉ [Instr.cmdStart, .cmdStop, .cmdSendAddr, .cmdSendData, .cmdRecvAck, .cmdRecvNack] →
      t.im = { s.im with div := t.im.div, data := t.im.data } ∧
      ((∀ d, i ≠ .wrImData d) → t.fault = s.fault)) ∧
    (s.im.busy = false → t.fault = s.fault)

/-- The accesses to TC that write leave IM, the host's items, TRACE, FAULT, RDATA, the inputs, CNT and PS
alone; only WR TC_CTRL changes RUN and OVIE, only WR TC_FLAG changes OVF. -/
def Obligations.TcWritesTouchOnlyTheirRegister : Prop :=
  ∀ (i : Instr) (s t : State), (∃ d, i = .wrTcCtrl d ∨ i = .wrTcCnt d ∨ i = .wrTcFlag d) →
    exec i s = .next t →
    t.im = s.im ∧ t.hostside = s.hostside ∧ t.trace = s.trace ∧ t.fault = s.fault ∧ t.rdata = s.rdata ∧
    t.host = s.host ∧ t.inputs = s.inputs ∧ t.tc.cnt = s.tc.cnt ∧ t.tc.ps = s.tc.ps ∧
    ((∀ d, i ≠ .wrTcCtrl d) → t.tc.run = s.tc.run ∧ t.tc.ovie = s.tc.ovie) ∧
    ((∀ d, i ≠ .wrTcFlag d) → t.tc.ovf = s.tc.ovf)

/-! ### The HOST agent and the host's arithmetic -/

/-- The list of host locals stays sorted by name with no repeats, in every step (the model's canonical form,
log entry 14). -/
def Obligations.StepKeepsLocalsCanonical : Prop :=
  ∀ s t : State, localsWf s.host.locals = true → step s = .next t → localsWf t.host.locals = true

/-- R93 and R170: `v <- e` gives the local the value of `e`, leaves the other locals and the block alone, and
HOST goes on. That an unassigned local too reads as before is the model's choice (log entry 14): its free
value is numbered by the counter of draws, which stays. -/
def Obligations.AssignmentChangesOneLocal : Prop :=
  ∀ (s : State) (v : Local) (e : Expr),
    ∃ t, execStmt (.assign v e) s = .next t ∧ t.localVal v = eval s e ∧
      (∀ w, w ≠ v → t.localVal w = s.localVal w) ∧ t.host.pos = s.host.pos + 1 ∧
      t.im = s.im ∧ t.tc = s.tc ∧ t.hostside = s.hostside ∧ t.trace = s.trace ∧ t.fault = s.fault

/-- R172: the divider keeps the bus clock at or below the target and is the smallest that does, unless it is
clamped to 255, where the clock is above the target. -/
def Obligations.DividerIsTheSmallestThatMeetsTheTarget : Prop :=
  ∀ ft fc : Nat, 0 < ft → 0 < fc →
    divider ft fc ≤ 255 ∧
    (fc ≤ ft * 526 → fc ≤ ft * (16 + 2 * divider ft fc) ∧
      ∀ d, d < divider ft fc → ft * (16 + 2 * d) < fc) ∧
    (ft * 526 < fc → divider ft fc = 255)

/-- R183: the combine's arithmetic on 64-bit values. -/
def Obligations.CombineIsTicksModuloTwoToThe64 : Prop :=
  ∀ (m : Word64) (t f : Byte),
    (combineTicks m t f).toNat = ((compensate m t f).toNat * 256 + t.toNat) % 2 ^ 64 ∧
    (combineMicros m t f).toNat = (combineTicks m t f).toNat / 2 ∧
    (combineMicros m t f).toNat < 2 ^ 63 ∧
    (compensate m t f).toNat =
      (if f.toNat % 2 = 1 ∧ t.toNat ≠ 255 then (m.toNat + 1) % 2 ^ 64 else m.toNat) ∧
    ∀ m' : Word64, m.toNat % 2 ^ 56 = m'.toNat % 2 ^ 56 → combineTicks m t f = combineTicks m' t f

/-- R182 steps 5 and 7: the expressions of `now_us`, evaluated on the host's locals, are the combine. -/
def Obligations.NowUsExpressionsAreTheCombine : Prop :=
  ∀ (s : State) (m : Word64) (t f : Byte),
    s.localVal mVar = m.toNat → s.localVal tVar = t.toNat → s.localVal fVar = f.toNat →
    (eval s noCompensationExpr = 0 ↔ f.getLsbD 0 = true ∧ t ≠ 255) ∧
    eval s compensateExpr = (m + 1).toNat ∧
    eval s ticksExpr = (m <<< 8 ||| t.setWidth 64).toNat

/-- R185: take the state in which `now_us` reads the counter, after `ticks` ticks, with OVC frozen at `n` and
no wrap lost (OVC and OVF together count the wraps, and a pending wrap is younger than 255 ticks). Whether
or not one tick falls between the counter read and the flag read, the combine gives the tick count. -/
def Obligations.CombineIsExactAcrossATick : Prop :=
  ∀ (ticks : Nat) (s s4 : State) (n : Word64),
    s.tc.cnt = BitVec.ofNat 8 ticks → s.hostside.ovc = some n →
    n + BitVec.ofNat 64 s.tc.ovf.toNat = BitVec.ofNat 64 (ticks / 256) →
    (s.tc.ovf = true → s.tc.cnt ≠ 255) →
    (s4 = s ∨ tickStep s = .next s4) →
    (combineTicks n s.tc.cnt (flagByte s4.tc)).toNat = ticks % 2 ^ 64
end

