-- ==== Sys2Proof/Laws/State.lean ====
section
/-! SUPPORT. What each named update of the state leaves in each field. -/

namespace Sys2Proof.Machine

@[simp] theorem State.setIm_im (s : State) (x : Im) : (s.setIm x).im = x := rfl
@[simp] theorem State.setIm_tc (s : State) (x : Im) : (s.setIm x).tc = s.tc := rfl
@[simp] theorem State.setIm_hostside (s : State) (x : Im) : (s.setIm x).hostside = s.hostside := rfl
@[simp] theorem State.setIm_trace (s : State) (x : Im) : (s.setIm x).trace = s.trace := rfl
@[simp] theorem State.setIm_fault (s : State) (x : Im) : (s.setIm x).fault = s.fault := rfl
@[simp] theorem State.setIm_host (s : State) (x : Im) : (s.setIm x).host = s.host := rfl
@[simp] theorem State.setIm_rdata (s : State) (x : Im) : (s.setIm x).rdata = s.rdata := rfl
@[simp] theorem State.setIm_inputs (s : State) (x : Im) : (s.setIm x).inputs = s.inputs := rfl

@[simp] theorem State.setTc_im (s : State) (x : Tc) : (s.setTc x).im = s.im := rfl
@[simp] theorem State.setTc_tc (s : State) (x : Tc) : (s.setTc x).tc = x := rfl
@[simp] theorem State.setTc_hostside (s : State) (x : Tc) : (s.setTc x).hostside = s.hostside := rfl
@[simp] theorem State.setTc_trace (s : State) (x : Tc) : (s.setTc x).trace = s.trace := rfl
@[simp] theorem State.setTc_fault (s : State) (x : Tc) : (s.setTc x).fault = s.fault := rfl
@[simp] theorem State.setTc_host (s : State) (x : Tc) : (s.setTc x).host = s.host := rfl
@[simp] theorem State.setTc_rdata (s : State) (x : Tc) : (s.setTc x).rdata = s.rdata := rfl
@[simp] theorem State.setTc_inputs (s : State) (x : Tc) : (s.setTc x).inputs = s.inputs := rfl

@[simp] theorem State.setHostSide_im (s : State) (x : HostSide) : (s.setHostSide x).im = s.im := rfl
@[simp] theorem State.setHostSide_tc (s : State) (x : HostSide) : (s.setHostSide x).tc = s.tc := rfl
@[simp] theorem State.setHostSide_hostside (s : State) (x : HostSide) : (s.setHostSide x).hostside = x := rfl
@[simp] theorem State.setHostSide_trace (s : State) (x : HostSide) : (s.setHostSide x).trace = s.trace := rfl
@[simp] theorem State.setHostSide_fault (s : State) (x : HostSide) : (s.setHostSide x).fault = s.fault := rfl
@[simp] theorem State.setHostSide_host (s : State) (x : HostSide) : (s.setHostSide x).host = s.host := rfl
@[simp] theorem State.setHostSide_rdata (s : State) (x : HostSide) : (s.setHostSide x).rdata = s.rdata := rfl
@[simp] theorem State.setHostSide_inputs (s : State) (x : HostSide) : (s.setHostSide x).inputs = s.inputs := rfl

@[simp] theorem State.setHost_im (s : State) (x : HostCtx) : (s.setHost x).im = s.im := rfl
@[simp] theorem State.setHost_tc (s : State) (x : HostCtx) : (s.setHost x).tc = s.tc := rfl
@[simp] theorem State.setHost_hostside (s : State) (x : HostCtx) : (s.setHost x).hostside = s.hostside := rfl
@[simp] theorem State.setHost_trace (s : State) (x : HostCtx) : (s.setHost x).trace = s.trace := rfl
@[simp] theorem State.setHost_fault (s : State) (x : HostCtx) : (s.setHost x).fault = s.fault := rfl
@[simp] theorem State.setHost_host (s : State) (x : HostCtx) : (s.setHost x).host = x := rfl
@[simp] theorem State.setHost_rdata (s : State) (x : HostCtx) : (s.setHost x).rdata = s.rdata := rfl
@[simp] theorem State.setHost_inputs (s : State) (x : HostCtx) : (s.setHost x).inputs = s.inputs := rfl

@[simp] theorem State.setInputs_im (s : State) (x : Inputs) : (s.setInputs x).im = s.im := rfl
@[simp] theorem State.setInputs_tc (s : State) (x : Inputs) : (s.setInputs x).tc = s.tc := rfl
@[simp] theorem State.setInputs_hostside (s : State) (x : Inputs) : (s.setInputs x).hostside = s.hostside := rfl
@[simp] theorem State.setInputs_trace (s : State) (x : Inputs) : (s.setInputs x).trace = s.trace := rfl
@[simp] theorem State.setInputs_fault (s : State) (x : Inputs) : (s.setInputs x).fault = s.fault := rfl
@[simp] theorem State.setInputs_host (s : State) (x : Inputs) : (s.setInputs x).host = s.host := rfl
@[simp] theorem State.setInputs_rdata (s : State) (x : Inputs) : (s.setInputs x).rdata = s.rdata := rfl
@[simp] theorem State.setInputs_inputs (s : State) (x : Inputs) : (s.setInputs x).inputs = x := rfl

@[simp] theorem State.ret_im (s : State) (v : Byte) : (s.ret v).im = s.im := rfl
@[simp] theorem State.ret_tc (s : State) (v : Byte) : (s.ret v).tc = s.tc := rfl
@[simp] theorem State.ret_hostside (s : State) (v : Byte) : (s.ret v).hostside = s.hostside := rfl
@[simp] theorem State.ret_trace (s : State) (v : Byte) : (s.ret v).trace = s.trace := rfl
@[simp] theorem State.ret_fault (s : State) (v : Byte) : (s.ret v).fault = s.fault := rfl
@[simp] theorem State.ret_host (s : State) (v : Byte) : (s.ret v).host = s.host := rfl
@[simp] theorem State.ret_rdata (s : State) (v : Byte) : (s.ret v).rdata = v := rfl
@[simp] theorem State.ret_inputs (s : State) (v : Byte) : (s.ret v).inputs = s.inputs := rfl

@[simp] theorem State.addEvent_im (s : State) (e : BusEvent) : (s.addEvent e).im = s.im := rfl
@[simp] theorem State.addEvent_tc (s : State) (e : BusEvent) : (s.addEvent e).tc = s.tc := rfl
@[simp] theorem State.addEvent_hostside (s : State) (e : BusEvent) : (s.addEvent e).hostside = s.hostside := rfl
@[simp] theorem State.addEvent_trace (s : State) (e : BusEvent) : (s.addEvent e).trace = s.trace ++ [e] := rfl
@[simp] theorem State.addEvent_fault (s : State) (e : BusEvent) : (s.addEvent e).fault = s.fault := rfl
@[simp] theorem State.addEvent_host (s : State) (e : BusEvent) : (s.addEvent e).host = s.host := rfl
@[simp] theorem State.addEvent_rdata (s : State) (e : BusEvent) : (s.addEvent e).rdata = s.rdata := rfl
@[simp] theorem State.addEvent_inputs (s : State) (e : BusEvent) : (s.addEvent e).inputs = s.inputs := rfl

@[simp] theorem State.raise_im (s : State) (r : Fault) : (s.raise r).im = s.im := rfl
@[simp] theorem State.raise_tc (s : State) (r : Fault) : (s.raise r).tc = s.tc := rfl
@[simp] theorem State.raise_hostside (s : State) (r : Fault) : (s.raise r).hostside = s.hostside := rfl
@[simp] theorem State.raise_trace (s : State) (r : Fault) : (s.raise r).trace = s.trace := rfl
@[simp] theorem State.raise_fault (s : State) (r : Fault) : (s.raise r).fault = s.fault.or (some r) := rfl
@[simp] theorem State.raise_host (s : State) (r : Fault) : (s.raise r).host = s.host := rfl
@[simp] theorem State.raise_rdata (s : State) (r : Fault) : (s.raise r).rdata = s.rdata := rfl
@[simp] theorem State.raise_inputs (s : State) (r : Fault) : (s.raise r).inputs = s.inputs := rfl

@[simp] theorem State.drawn_im (s : State) : s.drawn.im = s.im := rfl
@[simp] theorem State.drawn_tc (s : State) : s.drawn.tc = s.tc := rfl
@[simp] theorem State.drawn_hostside (s : State) : s.drawn.hostside = s.hostside := rfl
@[simp] theorem State.drawn_trace (s : State) : s.drawn.trace = s.trace := rfl
@[simp] theorem State.drawn_fault (s : State) : s.drawn.fault = s.fault := rfl
@[simp] theorem State.drawn_host (s : State) : s.drawn.host = s.host := rfl
@[simp] theorem State.drawn_rdata (s : State) : s.drawn.rdata = s.rdata := rfl
@[simp] theorem State.drawn_inputs (s : State) : s.drawn.inputs = { s.inputs with draws := s.inputs.draws + 1 } := rfl

@[simp] theorem State.setLocal_im (s : State) (v : Local) (n : Nat) : (s.setLocal v n).im = s.im := rfl
@[simp] theorem State.setLocal_tc (s : State) (v : Local) (n : Nat) : (s.setLocal v n).tc = s.tc := rfl
@[simp] theorem State.setLocal_hostside (s : State) (v : Local) (n : Nat) : (s.setLocal v n).hostside = s.hostside := rfl
@[simp] theorem State.setLocal_trace (s : State) (v : Local) (n : Nat) : (s.setLocal v n).trace = s.trace := rfl
@[simp] theorem State.setLocal_fault (s : State) (v : Local) (n : Nat) : (s.setLocal v n).fault = s.fault := rfl
@[simp] theorem State.setLocal_host (s : State) (v : Local) (n : Nat) : (s.setLocal v n).host = { s.host with locals := localSet v n s.host.locals } := rfl
@[simp] theorem State.setLocal_rdata (s : State) (v : Local) (n : Nat) : (s.setLocal v n).rdata = s.rdata := rfl
@[simp] theorem State.setLocal_inputs (s : State) (v : Local) (n : Nat) : (s.setLocal v n).inputs = s.inputs := rfl

@[simp] theorem State.advance_im (s : State) : s.advance.im = s.im := rfl
@[simp] theorem State.advance_tc (s : State) : s.advance.tc = s.tc := rfl
@[simp] theorem State.advance_hostside (s : State) : s.advance.hostside = s.hostside := rfl
@[simp] theorem State.advance_trace (s : State) : s.advance.trace = s.trace := rfl
@[simp] theorem State.advance_fault (s : State) : s.advance.fault = s.fault := rfl
@[simp] theorem State.advance_host (s : State) : s.advance.host = { s.host with pos := s.host.pos + 1 } := rfl
@[simp] theorem State.advance_rdata (s : State) : s.advance.rdata = s.rdata := rfl
@[simp] theorem State.advance_inputs (s : State) : s.advance.inputs = s.inputs := rfl

@[simp] theorem State.goTo_im (s : State) (p : Nat) : (s.goTo p).im = s.im := rfl
@[simp] theorem State.goTo_tc (s : State) (p : Nat) : (s.goTo p).tc = s.tc := rfl
@[simp] theorem State.goTo_hostside (s : State) (p : Nat) : (s.goTo p).hostside = s.hostside := rfl
@[simp] theorem State.goTo_trace (s : State) (p : Nat) : (s.goTo p).trace = s.trace := rfl
@[simp] theorem State.goTo_fault (s : State) (p : Nat) : (s.goTo p).fault = s.fault := rfl
@[simp] theorem State.goTo_host (s : State) (p : Nat) : (s.goTo p).host = { s.host with pos := p } := rfl
@[simp] theorem State.goTo_rdata (s : State) (p : Nat) : (s.goTo p).rdata = s.rdata := rfl
@[simp] theorem State.goTo_inputs (s : State) (p : Nat) : (s.goTo p).inputs = s.inputs := rfl

@[simp] theorem State.applyReset_im (s : State) : s.applyReset.im = Im.reset := rfl
@[simp] theorem State.applyReset_tc (s : State) : s.applyReset.tc = Tc.reset := rfl
@[simp] theorem State.applyReset_hostside (s : State) : s.applyReset.hostside = HostSide.reset := rfl
@[simp] theorem State.applyReset_trace (s : State) : s.applyReset.trace = [] := rfl
@[simp] theorem State.applyReset_fault (s : State) : s.applyReset.fault = none := rfl
@[simp] theorem State.applyReset_host (s : State) : s.applyReset.host = s.host := rfl
@[simp] theorem State.applyReset_rdata (s : State) : s.applyReset.rdata = 0 := rfl
@[simp] theorem State.applyReset_inputs (s : State) : s.applyReset.inputs = s.inputs := rfl

@[simp] theorem Im.accept_div (im : Im) (c : Cmd) : (im.accept c).div = im.div := rfl
@[simp] theorem Im.accept_data (im : Im) (c : Cmd) : (im.accept c).data = im.data := rfl
@[simp] theorem Im.accept_code (im : Im) (c : Cmd) : (im.accept c).code = im.code := rfl
@[simp] theorem Im.accept_held (im : Im) (c : Cmd) : (im.accept c).held = im.held := rfl
@[simp] theorem Im.accept_busy (im : Im) (c : Cmd) : (im.accept c).busy = true := rfl
@[simp] theorem Im.accept_done (im : Im) (c : Cmd) : (im.accept c).done = false := rfl
@[simp] theorem Im.accept_ctx (im : Im) (c : Cmd) : (im.accept c).ctx = im.ctx := rfl
@[simp] theorem Im.accept_pend (im : Im) (c : Cmd) : (im.accept c).pend = some (c, im.data) := rfl

@[simp] theorem Im.illegalComplete_div (im : Im) : im.illegalComplete.div = im.div := rfl
@[simp] theorem Im.illegalComplete_data (im : Im) : im.illegalComplete.data = im.data := rfl
@[simp] theorem Im.illegalComplete_code (im : Im) : im.illegalComplete.code = .phaseFailed := rfl
@[simp] theorem Im.illegalComplete_held (im : Im) : im.illegalComplete.held = im.held := rfl
@[simp] theorem Im.illegalComplete_busy (im : Im) : im.illegalComplete.busy = im.busy := rfl
@[simp] theorem Im.illegalComplete_done (im : Im) : im.illegalComplete.done = true := rfl
@[simp] theorem Im.illegalComplete_ctx (im : Im) : im.illegalComplete.ctx = .failed := rfl
@[simp] theorem Im.illegalComplete_pend (im : Im) : im.illegalComplete.pend = im.pend := rfl

@[simp] theorem Im.finish_div (im : Im) : im.finish.div = im.div := rfl
@[simp] theorem Im.finish_data (im : Im) : im.finish.data = im.data := rfl
@[simp] theorem Im.finish_code (im : Im) : im.finish.code = im.code := rfl
@[simp] theorem Im.finish_held (im : Im) : im.finish.held = im.held := rfl
@[simp] theorem Im.finish_busy (im : Im) : im.finish.busy = false := rfl
@[simp] theorem Im.finish_done (im : Im) : im.finish.done = true := rfl
@[simp] theorem Im.finish_ctx (im : Im) : im.finish.ctx = im.ctx := rfl
@[simp] theorem Im.finish_pend (im : Im) : im.finish.pend = none := rfl

@[simp] theorem Im.complete_div (im : Im) (r : Code × Ctx) : (im.complete r).div = im.div := rfl
@[simp] theorem Im.complete_data (im : Im) (r : Code × Ctx) : (im.complete r).data = im.data := rfl
@[simp] theorem Im.complete_code (im : Im) (r : Code × Ctx) : (im.complete r).code = r.1 := rfl
@[simp] theorem Im.complete_held (im : Im) (r : Code × Ctx) : (im.complete r).held = im.held := rfl
@[simp] theorem Im.complete_busy (im : Im) (r : Code × Ctx) : (im.complete r).busy = false := rfl
@[simp] theorem Im.complete_done (im : Im) (r : Code × Ctx) : (im.complete r).done = true := rfl
@[simp] theorem Im.complete_ctx (im : Im) (r : Code × Ctx) : (im.complete r).ctx = r.2 := rfl
@[simp] theorem Im.complete_pend (im : Im) (r : Code × Ctx) : (im.complete r).pend = none := rfl

end Sys2Proof.Machine
end

