-- ==== Sys2Proof/Laws/Locals.lean ====
section
/-! SUPPORT. The host's locals: an assignment keeps the list canonical, the assigned name reads back, every
other name is left alone. -/

namespace Sys2Proof.Machine

/-- The assigned name reads as the value assigned. -/
@[simp] theorem localGet_localSet_same (v : Local) (n : Nat) (l : List (Local × Nat)) :
    localGet v (localSet v n l) = some n := by
  induction l with
  | nil => simp [localSet, localGet]
  | cons x rest ih =>
    obtain ⟨k, m⟩ := x
    unfold localSet
    split
    · simp [localGet]
    · split
      · simp [localGet]
      · simp [localGet, *]

/-- Another name reads as before. -/
theorem localGet_localSet_other {v w : Local} (h : w ≠ v) (n : Nat) (l : List (Local × Nat)) :
    localGet w (localSet v n l) = localGet w l := by
  induction l with
  | nil => simp [localSet, localGet, h]
  | cons x rest ih =>
    obtain ⟨k, m⟩ := x
    unfold localSet
    split
    · simp [localGet, h]
    · split
      · rename_i heq
        subst heq
        simp [localGet, h]
      · simp [localGet, ih]

/-- A list with a canonical tail is canonical when its first name is below the tail's first name. -/
theorem localsWf_cons {k m : Nat} {l : List (Local × Nat)} (h : localsWf l = true)
    (hk : ∀ x ∈ l.head?, k < x.1) : localsWf ((k, m) :: l) = true := by
  cases l with
  | nil => rfl
  | cons x rest => simpa [localsWf, h] using hk x

/-- The tail of a canonical list is canonical, and its first name is above the head's. -/
theorem localsWf_of_cons {k m : Nat} {l : List (Local × Nat)} (h : localsWf ((k, m) :: l) = true) :
    localsWf l = true ∧ ∀ x ∈ l.head?, k < x.1 := by
  cases l with
  | nil => exact ⟨rfl, by simp⟩
  | cons x rest =>
    simp only [localsWf, Bool.and_eq_true, decide_eq_true_eq] at h
    exact ⟨h.2, by simpa using h.1⟩

/-- The first name after an assignment is the assigned one or the one before. -/
theorem localSet_head {v n : Nat} {l : List (Local × Nat)} {x : Local × Nat}
    (h : x ∈ (localSet v n l).head?) : x.1 = v ∨ x ∈ l.head? := by
  cases l with
  | nil => simp only [localSet, List.head?_cons, Option.mem_some_iff] at h; exact .inl (by rw [← h])
  | cons y rest =>
    obtain ⟨k, m⟩ := y
    unfold localSet at h
    split at h
    · simp only [List.head?_cons, Option.mem_some_iff] at h; exact .inl (by rw [← h])
    · split at h
      · simp only [List.head?_cons, Option.mem_some_iff] at h; exact .inl (by rw [← h])
      · simp only [List.head?_cons, Option.mem_some_iff] at h; exact .inr (by simp [h])

/-- An assignment keeps the list canonical. -/
theorem localSet_wf (v : Local) (n : Nat) (l : List (Local × Nat)) (h : localsWf l = true) :
    localsWf (localSet v n l) = true := by
  induction l with
  | nil => simp [localSet, localsWf]
  | cons x rest ih =>
    obtain ⟨k, m⟩ := x
    obtain ⟨hr, hh⟩ := localsWf_of_cons h
    unfold localSet
    split
    · exact localsWf_cons h (by simpa using ‹v < k›)
    · split
      · rename_i heq
        exact localsWf_cons hr (heq ▸ hh)
      · rename_i hlt hne
        refine localsWf_cons (ih hr) fun x hx => ?_
        obtain hv | hx := localSet_head hx
        · rw [hv]; exact Nat.lt_of_le_of_ne (Nat.le_of_not_lt hlt) fun e => hne e.symm
        · exact hh x hx

/-- The assigned local holds its value. -/
@[simp] theorem State.localVal_setLocal_same (s : State) (v : Local) (n : Nat) :
    (s.setLocal v n).localVal v = n := by
  simp [State.localVal]

/-- Every other local reads as before. -/
theorem State.localVal_setLocal_other (s : State) {v w : Local} (h : w ≠ v) (n : Nat) :
    (s.setLocal v n).localVal w = s.localVal w := by
  simp [State.localVal, localGet_localSet_other h]

/-- A local's value depends on the HOST's locals and the number of the next free value alone. -/
theorem State.localVal_congr {s t : State} (v : Local) (hl : t.host.locals = s.host.locals)
    (hd : t.inputs.draws = s.inputs.draws) : t.localVal v = s.localVal v := by
  simp [State.localVal, hl, hd]

end Sys2Proof.Machine
end

