-- ==== Sys2Proof/Laws/Ops.lean ====
section
/-! SUPPORT. What the shared operations of Machine/Ops.lean do: the draws touch the inputs alone, the first
fault stays, the notification, and the flag computations of Machine/Flags.lean. -/

namespace Sys2Proof.Machine

/-! ### Draws and picks touch only the inputs -/

/-- Using up a pick changes the inputs alone. -/
theorem State.pickTaken_eq (s : State) : ∃ i, s.pickTaken = s.setInputs i := by
  unfold State.pickTaken
  split
  · exact ⟨_, rfl⟩
  · exact ⟨_, rfl⟩

/-- Taking a start answer changes the inputs alone. -/
theorem State.startTaken_eq (s : State) : ∃ i, s.startTaken = s.setInputs i := by
  unfold State.startTaken
  split
  · exact ⟨_, rfl⟩
  · exact ⟨_, rfl⟩

/-- Taking an address answer changes the inputs alone. -/
theorem State.addrTaken_eq (s : State) : ∃ i, s.addrTaken = s.setInputs i := by
  unfold State.addrTaken
  split
  · exact ⟨_, rfl⟩
  · exact ⟨_, rfl⟩

/-- Taking a transmit answer changes the inputs alone. -/
theorem State.txTaken_eq (s : State) : ∃ i, s.txTaken = s.setInputs i := by
  unfold State.txTaken
  split
  · exact ⟨_, rfl⟩
  · exact ⟨_, rfl⟩

/-- Taking a receive answer changes the inputs alone. -/
theorem State.rxTaken_eq (s : State) : ∃ i, s.rxTaken = s.setInputs i := by
  unfold State.rxTaken
  split
  · exact ⟨_, rfl⟩
  · exact ⟨_, rfl⟩

@[simp] theorem State.pickTaken_im (s : State) : s.pickTaken.im = s.im := by
  obtain ⟨i, h⟩ := s.pickTaken_eq; rw [h]; rfl
@[simp] theorem State.pickTaken_tc (s : State) : s.pickTaken.tc = s.tc := by
  obtain ⟨i, h⟩ := s.pickTaken_eq; rw [h]; rfl
@[simp] theorem State.pickTaken_hostside (s : State) : s.pickTaken.hostside = s.hostside := by
  obtain ⟨i, h⟩ := s.pickTaken_eq; rw [h]; rfl
@[simp] theorem State.pickTaken_trace (s : State) : s.pickTaken.trace = s.trace := by
  obtain ⟨i, h⟩ := s.pickTaken_eq; rw [h]; rfl
@[simp] theorem State.pickTaken_fault (s : State) : s.pickTaken.fault = s.fault := by
  obtain ⟨i, h⟩ := s.pickTaken_eq; rw [h]; rfl
@[simp] theorem State.pickTaken_host (s : State) : s.pickTaken.host = s.host := by
  obtain ⟨i, h⟩ := s.pickTaken_eq; rw [h]; rfl
@[simp] theorem State.pickTaken_rdata (s : State) : s.pickTaken.rdata = s.rdata := by
  obtain ⟨i, h⟩ := s.pickTaken_eq; rw [h]; rfl

@[simp] theorem State.startTaken_im (s : State) : s.startTaken.im = s.im := by
  obtain ⟨i, h⟩ := s.startTaken_eq; rw [h]; rfl
@[simp] theorem State.startTaken_tc (s : State) : s.startTaken.tc = s.tc := by
  obtain ⟨i, h⟩ := s.startTaken_eq; rw [h]; rfl
@[simp] theorem State.startTaken_hostside (s : State) : s.startTaken.hostside = s.hostside := by
  obtain ⟨i, h⟩ := s.startTaken_eq; rw [h]; rfl
@[simp] theorem State.startTaken_trace (s : State) : s.startTaken.trace = s.trace := by
  obtain ⟨i, h⟩ := s.startTaken_eq; rw [h]; rfl
@[simp] theorem State.startTaken_fault (s : State) : s.startTaken.fault = s.fault := by
  obtain ⟨i, h⟩ := s.startTaken_eq; rw [h]; rfl
@[simp] theorem State.startTaken_host (s : State) : s.startTaken.host = s.host := by
  obtain ⟨i, h⟩ := s.startTaken_eq; rw [h]; rfl
@[simp] theorem State.startTaken_rdata (s : State) : s.startTaken.rdata = s.rdata := by
  obtain ⟨i, h⟩ := s.startTaken_eq; rw [h]; rfl

@[simp] theorem State.addrTaken_im (s : State) : s.addrTaken.im = s.im := by
  obtain ⟨i, h⟩ := s.addrTaken_eq; rw [h]; rfl
@[simp] theorem State.addrTaken_tc (s : State) : s.addrTaken.tc = s.tc := by
  obtain ⟨i, h⟩ := s.addrTaken_eq; rw [h]; rfl
@[simp] theorem State.addrTaken_hostside (s : State) : s.addrTaken.hostside = s.hostside := by
  obtain ⟨i, h⟩ := s.addrTaken_eq; rw [h]; rfl
@[simp] theorem State.addrTaken_trace (s : State) : s.addrTaken.trace = s.trace := by
  obtain ⟨i, h⟩ := s.addrTaken_eq; rw [h]; rfl
@[simp] theorem State.addrTaken_fault (s : State) : s.addrTaken.fault = s.fault := by
  obtain ⟨i, h⟩ := s.addrTaken_eq; rw [h]; rfl
@[simp] theorem State.addrTaken_host (s : State) : s.addrTaken.host = s.host := by
  obtain ⟨i, h⟩ := s.addrTaken_eq; rw [h]; rfl
@[simp] theorem State.addrTaken_rdata (s : State) : s.addrTaken.rdata = s.rdata := by
  obtain ⟨i, h⟩ := s.addrTaken_eq; rw [h]; rfl

@[simp] theorem State.txTaken_im (s : State) : s.txTaken.im = s.im := by
  obtain ⟨i, h⟩ := s.txTaken_eq; rw [h]; rfl
@[simp] theorem State.txTaken_tc (s : State) : s.txTaken.tc = s.tc := by
  obtain ⟨i, h⟩ := s.txTaken_eq; rw [h]; rfl
@[simp] theorem State.txTaken_hostside (s : State) : s.txTaken.hostside = s.hostside := by
  obtain ⟨i, h⟩ := s.txTaken_eq; rw [h]; rfl
@[simp] theorem State.txTaken_trace (s : State) : s.txTaken.trace = s.trace := by
  obtain ⟨i, h⟩ := s.txTaken_eq; rw [h]; rfl
@[simp] theorem State.txTaken_fault (s : State) : s.txTaken.fault = s.fault := by
  obtain ⟨i, h⟩ := s.txTaken_eq; rw [h]; rfl
@[simp] theorem State.txTaken_host (s : State) : s.txTaken.host = s.host := by
  obtain ⟨i, h⟩ := s.txTaken_eq; rw [h]; rfl
@[simp] theorem State.txTaken_rdata (s : State) : s.txTaken.rdata = s.rdata := by
  obtain ⟨i, h⟩ := s.txTaken_eq; rw [h]; rfl

@[simp] theorem State.rxTaken_im (s : State) : s.rxTaken.im = s.im := by
  obtain ⟨i, h⟩ := s.rxTaken_eq; rw [h]; rfl
@[simp] theorem State.rxTaken_tc (s : State) : s.rxTaken.tc = s.tc := by
  obtain ⟨i, h⟩ := s.rxTaken_eq; rw [h]; rfl
@[simp] theorem State.rxTaken_hostside (s : State) : s.rxTaken.hostside = s.hostside := by
  obtain ⟨i, h⟩ := s.rxTaken_eq; rw [h]; rfl
@[simp] theorem State.rxTaken_trace (s : State) : s.rxTaken.trace = s.trace := by
  obtain ⟨i, h⟩ := s.rxTaken_eq; rw [h]; rfl
@[simp] theorem State.rxTaken_fault (s : State) : s.rxTaken.fault = s.fault := by
  obtain ⟨i, h⟩ := s.rxTaken_eq; rw [h]; rfl
@[simp] theorem State.rxTaken_host (s : State) : s.rxTaken.host = s.host := by
  obtain ⟨i, h⟩ := s.rxTaken_eq; rw [h]; rfl
@[simp] theorem State.rxTaken_rdata (s : State) : s.rxTaken.rdata = s.rdata := by
  obtain ⟨i, h⟩ := s.rxTaken_eq; rw [h]; rfl

/-! ### Faults -/

theorem State.raise_fault_of_none {s : State} (h : s.fault = none) (r : Fault) :
    (s.raise r).fault = some r := by simp [h]

theorem State.raise_fault_of_some {s : State} {q : Fault} (h : s.fault = some q) (r : Fault) :
    (s.raise r).fault = some q := by simp [h]

/-! ### The notification -/

/-- Taking the notification: OVF is cleared; OVC counts one, or the fault is raised where it is unwritten. -/
theorem State.takeNotification_cases (s : State) :
    (∃ n, s.hostside.ovc = some n ∧ s.takeNotification =
      (s.setTc { s.tc with ovf := false }).setHostSide { s.hostside with ovc := some (n + 1) }) ∨
    (s.hostside.ovc = none ∧ s.takeNotification =
      (s.setTc { s.tc with ovf := false }).raise .ovcUnwritten) := by
  unfold State.takeNotification
  cases h : s.hostside.ovc with
  | none => exact .inr ⟨rfl, by simp [h]⟩
  | some n => exact .inl ⟨n, rfl, by simp [h]⟩

/-! ### Flags -/

/-- A tick wraps with OVF in one step, or adds 1. -/
theorem Tc.tick_cases (tc : Tc) :
    (tc.cnt = 255 ∧ tc.tick = { tc with cnt := 0, ovf := true }) ∨
    (tc.cnt ≠ 255 ∧ tc.tick = { tc with cnt := tc.cnt + 1 }) := by
  unfold Tc.tick
  split
  · exact .inl ⟨‹_›, rfl⟩
  · exact .inr ⟨‹_›, rfl⟩

end Sys2Proof.Machine
end

