-- ==== Sys2Proof/Laws/Agents.lean ====
section
/-! SUPPORT. What each shared operation and each agent's step can do, said once: the provers cite these
instead of unfolding the machine. -/

namespace Sys2Proof.Machine

/-! ### Accesses -/

/-- Acceptance of a command: BUSY_WRITE, acceptance, or the illegal-in-context completion (R106). -/
theorem acceptCommand_cases (c : Cmd) (s : State) :
    (s.im.busy = true ∧ acceptCommand c s = .next (s.raise .busyWrite)) ∨
    (s.im.busy = false ∧ legal s.im.ctx c = true ∧ acceptCommand c s = .next (s.setIm (s.im.accept c))) ∨
    (s.im.busy = false ∧ legal s.im.ctx c = false ∧ acceptCommand c s = .next (s.setIm s.im.illegalComplete)) := by
  unfold acceptCommand
  split
  · exact .inl ⟨‹_›, rfl⟩
  · split
    · exact .inr (.inl ⟨Bool.eq_false_of_not_eq_true ‹_›, ‹_›, rfl⟩)
    · exact .inr (.inr ⟨Bool.eq_false_of_not_eq_true ‹¬s.im.busy = true›, Bool.eq_false_of_not_eq_true ‹_›, rfl⟩)

/-- Everything an access can do, whichever it is: return a value (drawing one or not), write the divider,
write DATA while idle, accept or fail a command while idle, raise BUSY_WRITE while busy, write RUN and
OVIE, clear OVF, or nothing. -/
inductive AccessEffect (s : State) : State → Prop where
  | nothing : AccessEffect s s
  | returns (v : Byte) : AccessEffect s (s.ret v)
  | returnsFree : s.im.busy = true → AccessEffect s (s.drawn.ret s.freeByte)
  | writesDiv (d : Byte) : AccessEffect s (s.setIm { s.im with div := d })
  | writesData (d : Byte) : s.im.busy = false → AccessEffect s (s.setIm { s.im with data := d })
  | busyWrite : s.im.busy = true → AccessEffect s (s.raise .busyWrite)
  | accepts (c : Cmd) : s.im.busy = false → legal s.im.ctx c = true → AccessEffect s (s.setIm (s.im.accept c))
  | fails (c : Cmd) : s.im.busy = false → legal s.im.ctx c = false →
      AccessEffect s (s.setIm s.im.illegalComplete)
  | writesCtrl (run ovie : Bool) : AccessEffect s (s.setTc { s.tc with run := run, ovie := ovie })
  | clearsOvf : AccessEffect s (s.setTc { s.tc with ovf := false })

/-- A command's accept part has one of the access effects. -/
theorem acceptCommand_effect (c : Cmd) (s : State) : ∃ t, acceptCommand c s = .next t ∧ AccessEffect s t := by
  obtain ⟨hb, h⟩ | ⟨hb, hl, h⟩ | ⟨hb, hl, h⟩ := acceptCommand_cases c s
  · exact ⟨_, h, .busyWrite hb⟩
  · exact ⟨_, h, .accepts c hb hl⟩
  · exact ⟨_, h, .fails c hb hl⟩

/-- Every access answers a next state with one of the access effects. -/
theorem exec_effect (i : Instr) (s : State) : ∃ t, exec i s = .next t ∧ AccessEffect s t := by
  cases i with
  | rdImDiv => exact ⟨_, rfl, .returns _⟩
  | wrImDiv d => exact ⟨_, rfl, .writesDiv d⟩
  | rdImData =>
    simp only [exec, execRdImData]
    split
    · exact ⟨_, rfl, .returnsFree ‹_›⟩
    · exact ⟨_, rfl, .returns _⟩
  | wrImData d =>
    simp only [exec, execWrImData]
    split
    · exact ⟨_, rfl, .busyWrite ‹_›⟩
    · exact ⟨_, rfl, .writesData d (Bool.eq_false_of_not_eq_true ‹_›)⟩
  | rdImCmd => exact ⟨_, rfl, .returns _⟩
  | cmdNop => exact ⟨_, rfl, .nothing⟩
  | cmdStart => exact acceptCommand_effect .start s
  | cmdStop => exact acceptCommand_effect .stop s
  | cmdSendAddr => exact acceptCommand_effect .sendAddr s
  | cmdSendData => exact acceptCommand_effect .sendData s
  | cmdRecvAck => exact acceptCommand_effect .recvAck s
  | cmdRecvNack => exact acceptCommand_effect .recvNack s
  | rdImStat => exact ⟨_, rfl, .returns _⟩
  | wrImStat d => exact ⟨_, rfl, .nothing⟩
  | rdTcCtrl => exact ⟨_, rfl, .returns _⟩
  | wrTcCtrl d => exact ⟨_, rfl, .writesCtrl _ _⟩
  | rdTcCnt => exact ⟨_, rfl, .returns _⟩
  | wrTcCnt d => exact ⟨_, rfl, .nothing⟩
  | rdTcFlag => exact ⟨_, rfl, .returns _⟩
  | wrTcFlag d =>
    simp only [exec, execWrTcFlag]
    split
    · exact ⟨_, rfl, .clearsOvf⟩
    · exact ⟨_, rfl, .nothing⟩
  | rdRsvd7 => exact ⟨_, rfl, .returns _⟩
  | wrRsvd7 d => exact ⟨_, rfl, .nothing⟩

/-- HOST's part after an access changes the HOST agent alone. -/
theorem afterAccess_eq (dst : Option Local) (s : State) :
    afterAccess dst s = s ∨ ∃ p l, afterAccess dst s = s.setHost { s.host with pos := p, locals := l } ∧
      (l = s.host.locals ∨ ∃ v n, l = localSet v n s.host.locals) := by
  unfold afterAccess
  split
  · exact .inl rfl
  · split
    · exact .inr ⟨_, _, rfl, .inr ⟨_, _, rfl⟩⟩
    · exact .inr ⟨_, _, rfl, .inl rfl⟩

/-- A host access: a fault is raised, or the decoded instruction acts and HOST goes on. -/
theorem hostAccess_cases (width : Nat) (w : AccessWord) (dst : Option Local) (s : State) :
    (∃ r, hostAccess width w dst s = .next (s.raise r)) ∨
    (∃ i t, decode w = .instr i ∧ exec i s = .next t ∧ AccessEffect s t ∧
      hostAccess width w dst s = .next (afterAccess dst t)) := by
  unfold hostAccess
  split
  · cases hd : decode w with
    | instr i =>
      obtain ⟨t, ht, he⟩ := exec_effect i s
      exact .inr ⟨i, t, rfl, ht, he, by simp [ht]⟩
    | rejected e => exact .inl ⟨_, rfl⟩
  · exact .inl ⟨_, rfl⟩

/-! ### Steps -/

/-- A step that answers a next state is the picked agent's, and starts without a fault, or is a reset. -/
theorem step_next {s t : State} (h : step s = .next t) :
    (s.fault = none ∨ s.nextPick = .reset) ∧ agentStep s.nextPick s.pickTaken = .next t := by
  unfold step at h
  cases hf : s.fault with
  | none => rw [hf] at h; exact ⟨.inl rfl, h⟩
  | some r =>
    rw [hf] at h
    cases hp : s.nextPick <;> simp only [hp, faultedStep] at h
    case reset => exact ⟨.inr rfl, h⟩
    all_goals cases h

/-- A recorded fault stops every agent. -/
theorem step_of_fault {s : State} {r : Fault} (h : s.fault = some r) (hp : s.nextPick ≠ .reset) :
    step s = .fault r := by
  unfold step
  rw [h]
  cases hq : s.nextPick <;> simp_all [faultedStep]

/-- The reset input acts in every state, a faulted one too. -/
theorem step_of_reset {s : State} (hp : s.nextPick = .reset) : step s = .next s.pickTaken.applyReset := by
  unfold step
  cases s.fault <;> simp only [hp] <;> rfl

/-- Without a recorded fault the step is the picked agent's. -/
theorem step_of_no_fault {s : State} (h : s.fault = none) : step s = agentStep s.nextPick s.pickTaken := by
  unfold step; rw [h]

/-- A TICK step ticks, or does nothing where `RUN = 0`. -/
theorem tickStep_cases (s : State) :
    (s.tc.run = true ∧ tickStep s = .next (s.setTc s.tc.tick)) ∨ (s.tc.run = false ∧ tickStep s = .next s) := by
  unfold tickStep
  split
  · exact .inl ⟨‹_›, rfl⟩
  · exact .inr ⟨Bool.eq_false_of_not_eq_true ‹_›, rfl⟩

/-- A HANDLER step takes the notification, or does nothing where it is not enabled. -/
theorem handlerStep_cases (s : State) :
    (handlerEnabled s = true ∧ handlerStep s = .next s.takeNotification) ∨
    (handlerEnabled s = false ∧ handlerStep s = .next s) := by
  unfold handlerStep
  split
  · exact .inl ⟨‹_›, rfl⟩
  · exact .inr ⟨Bool.eq_false_of_not_eq_true ‹_›, rfl⟩

/-- An ENGINE step completes the pending command, or does nothing where `BUSY = 0`; a busy state without a
pending command, which no run reaches, only finishes. -/
theorem engineStep_cases (s : State) :
    (s.im.busy = false ∧ engineStep s = .next s) ∨
    (∃ c b, s.im.busy = true ∧ s.im.pend = some (c, b) ∧ engineStep s = .next (completeCommand c b s)) ∨
    (s.im.busy = true ∧ s.im.pend = none ∧ engineStep s = .next (s.setIm s.im.finish)) := by
  unfold engineStep
  split
  · cases hp : s.im.pend with
    | none => exact .inr (.inr ⟨‹_›, rfl, rfl⟩)
    | some p => exact .inr (.inl ⟨p.1, p.2, ‹_›, rfl, rfl⟩)
  · exact .inl ⟨Bool.eq_false_of_not_eq_true ‹_›, rfl⟩

/-- What HOST's own steps do beside an access: they change the HOST agent, HOSTSIDE and FAULT alone. -/
inductive HostEffect (s : State) : Stmt → State → Prop where
  | control (st : Stmt) (p : Nat) : HostEffect s st (s.setHost { s.host with pos := p })
  | assigns (st : Stmt) (v : Local) (n : Nat) : HostEffect s st (s.setLocal v n).advance
  | entersCs (v : Local) :
      HostEffect s (.csEnter v) ((s.setLocal v (truth s.hostside.hie)).setHostSide
        { s.hostside with hie := false }).advance
  | setsHie (st : Stmt) (b : Bool) : ((∃ v, st = .csExit v) ∨ st = .setHie b) →
      HostEffect s st (s.setHostSide { s.hostside with hie := b }).advance
  | storesOvc (e : Expr) (n : Word64) : s.hostside.hie = false →
      HostEffect s (.storeOvc e) (s.setHostSide { s.hostside with ovc := some n }).advance
  | returns (st : Stmt) (r : Result) : HostEffect s st (returnWith r s)
  | raises (st : Stmt) (r : Fault) : HostEffect s st (s.raise r)
  | accesses (st : Stmt) (dst : Option Local) (t : State) : AccessEffect s t →
      HostEffect s st (afterAccess dst t)

/-- A jump that answers goes to a position. -/
theorem jump_next {l : Label} {s t : State} (h : jump l s = .next t) :
    ∃ p, t = s.setHost { s.host with pos := p } := by
  unfold jump at h
  split at h
  · exact ⟨_, (Host.Outcome.next.inj h).symm⟩
  · cases h

/-- An access line has an access's effect, or raises a fault. -/
theorem hostAccess_effect {width : Nat} {w : AccessWord} {dst : Option Local} {s t : State} (st : Stmt)
    (h : hostAccess width w dst s = .next t) : HostEffect s st t := by
  obtain ⟨r, hr⟩ | ⟨i, u, -, -, he, hu⟩ := hostAccess_cases width w dst s
  · rw [hr] at h; cases h; exact .raises st r
  · rw [hu] at h; cases h; exact .accesses st dst u he

/-- Everything a statement of the HOST can do. -/
theorem execStmt_effect {st : Stmt} {s t : State} (h : execStmt st s = .next t) : HostEffect s st t := by
  cases st with
  | rd v r => exact hostAccess_effect _ h
  | wr r e => exact hostAccess_effect _ h
  | access width w => exact hostAccess_effect _ h
  | assign v e => cases h; exact .assigns _ v _
  | ifGoto e l =>
    simp only [execStmt] at h
    split at h
    · obtain ⟨p, rfl⟩ := jump_next h; exact .control _ p
    · cases h; exact .control _ _
  | goto l => obtain ⟨p, rfl⟩ := jump_next h; exact .control _ p
  | csEnter v => cases h; exact .entersCs v
  | csExit v => cases h; exact .setsHie _ _ (.inl ⟨v, rfl⟩)
  | loadOvc v =>
    simp only [execStmt, loadOvc] at h
    split at h
    · cases h; exact .raises _ _
    · split at h
      · cases h; exact .raises _ _
      · cases h; exact .assigns _ v _
  | storeOvc e =>
    simp only [execStmt, storeOvc] at h
    split at h
    · cases h; exact .raises _ _
    · cases h; exact .storesOvc e _ (Bool.eq_false_of_not_eq_true ‹_›)
  | ret r => cases h; exact .returns _ _
  | raiseBadConfig => cases h; exact .raises _ _
  | setHie b => cases h; exact .setsHie _ b (.inr rfl)

/-- Everything a HOST step can do: its line's effect, the beginning of the next program, or nothing. -/
theorem hostStep_cases {s t : State} (h : hostStep s = .next t) :
    (∃ line, currentLine s = some line ∧ HostEffect s line.stmt t) ∨
    (∃ p rest, currentLine s = none ∧ s.host.todo = p :: rest ∧ t = loadProgram p rest s) ∨
    t = s := by
  unfold hostStep at h
  cases hl : currentLine s with
  | some line =>
    simp only [hl] at h
    exact .inl ⟨line, rfl, execStmt_effect h⟩
  | none =>
    simp only [hl] at h
    split at h
    · cases h; exact .inr (.inl ⟨_, _, rfl, ‹_›, rfl⟩)
    · cases h; exact .inr (.inr rfl)

/-- Using up the pick does not move HOST's line. -/
@[simp] theorem currentLine_pickTaken (s : State) : currentLine s.pickTaken = currentLine s := by
  simp [currentLine]

end Sys2Proof.Machine
end

