-- ==== Sys2Proof/Laws/PerInstr.lean ====
section
/-! SUPPORT. One statement per instruction: its word is its row of spec/opcode_table.json (the row's match
under the row's mask). -/

namespace Sys2Proof.Laws

/-- The mask `0xF00` keeps WE and OFF of an access word and clears WDATA (30_encoding R80, R81). -/
theorem accessWord_and_F00 (we : Bool) (off : Offset) (d : Byte) :
    accessWord we off d &&& 0xF00#12 = accessWord we off 0 := by
  apply BitVec.eq_of_getLsbD_eq
  intro i hi
  unfold accessWord
  rw [BitVec.getLsbD_and]
  simp only [BitVec.getLsbD_append]
  interval_cases i <;> simp

end Sys2Proof.Laws

namespace Sys2Proof.Laws.TableWord

/-- The row's `mask`. -/
def mask : Instr → AccessWord
  | .cmdNop | .cmdStart | .cmdStop | .cmdSendAddr | .cmdSendData | .cmdRecvAck | .cmdRecvNack => 0xFFF
  | .rdImDiv | .rdImData | .rdImCmd | .rdImStat | .rdTcCtrl | .rdTcCnt | .rdTcFlag | .rdRsvd7 => 0xF00
  | .wrImDiv _ | .wrImData _ | .wrImStat _ | .wrTcCtrl _ | .wrTcCnt _ | .wrTcFlag _ | .wrRsvd7 _ => 0xF00

/-- The row's `match`. -/
def pattern : Instr → AccessWord
  | .rdImDiv => 0x000 | .wrImDiv _ => 0x800 | .rdImData => 0x100 | .wrImData _ => 0x900
  | .rdImCmd => 0x200 | .cmdNop => 0xA00 | .cmdStart => 0xA01 | .cmdStop => 0xA02
  | .cmdSendAddr => 0xA03 | .cmdSendData => 0xA04 | .cmdRecvAck => 0xA05 | .cmdRecvNack => 0xA06
  | .rdImStat => 0x300 | .wrImStat _ => 0xB00 | .rdTcCtrl => 0x400 | .wrTcCtrl _ => 0xC00
  | .rdTcCnt => 0x500 | .wrTcCnt _ => 0xD00 | .rdTcFlag => 0x600 | .wrTcFlag _ => 0xE00
  | .rdRsvd7 => 0x700 | .wrRsvd7 _ => 0xF00

/-- The instruction's word is its row's. -/
def Statement (i : Instr) : Prop := encode i &&& mask i = pattern i

theorem rdImDiv : Statement .rdImDiv := rfl
theorem wrImDiv (d : Byte) : Statement (.wrImDiv d) := accessWord_and_F00 true 0 d
theorem rdImData : Statement .rdImData := rfl
theorem wrImData (d : Byte) : Statement (.wrImData d) := accessWord_and_F00 true 1 d
theorem rdImCmd : Statement .rdImCmd := rfl
theorem cmdNop : Statement .cmdNop := rfl
theorem cmdStart : Statement .cmdStart := rfl
theorem cmdStop : Statement .cmdStop := rfl
theorem cmdSendAddr : Statement .cmdSendAddr := rfl
theorem cmdSendData : Statement .cmdSendData := rfl
theorem cmdRecvAck : Statement .cmdRecvAck := rfl
theorem cmdRecvNack : Statement .cmdRecvNack := rfl
theorem rdImStat : Statement .rdImStat := rfl
theorem wrImStat (d : Byte) : Statement (.wrImStat d) := accessWord_and_F00 true 3 d
theorem rdTcCtrl : Statement .rdTcCtrl := rfl
theorem wrTcCtrl (d : Byte) : Statement (.wrTcCtrl d) := accessWord_and_F00 true 4 d
theorem rdTcCnt : Statement .rdTcCnt := rfl
theorem wrTcCnt (d : Byte) : Statement (.wrTcCnt d) := accessWord_and_F00 true 5 d
theorem rdTcFlag : Statement .rdTcFlag := rfl
theorem wrTcFlag (d : Byte) : Statement (.wrTcFlag d) := accessWord_and_F00 true 6 d
theorem rdRsvd7 : Statement .rdRsvd7 := rfl
theorem wrRsvd7 (d : Byte) : Statement (.wrRsvd7 d) := accessWord_and_F00 true 7 d

end Sys2Proof.Laws.TableWord
end

