-- ==== Sys2Proof/Laws/Runs.lean ====
section
/-! SUPPORT. Runs: a run that has stopped has no further states, and meets ENGINE_COMPLETES from there. -/

namespace Sys2Proof.Machine

/-- A run that has stopped has no further state. -/
theorem stateAt_succ_of_none {s : State} {n : Nat} (h : stateAt s n = none) : stateAt s (n + 1) = none := by
  simp [stateAt, h]

/-- A state whose next step stops the run is the run's only state. -/
theorem stateAt_of_stopsNow {s : State} (h : stopsNow s = true) (n : Nat) : stateAt s (n + 1) = none := by
  induction n with
  | zero => unfold stopsNow at h; unfold stateAt; split at h <;> simp_all [stateAt]
  | succ n ih => exact stateAt_succ_of_none ih

/-- A run that stops at its first step meets ENGINE_COMPLETES, whatever is pending: it is no stuck bus. -/
theorem engineCompletes_of_stopsNow {s : State} (h : stopsNow s = true) : EngineCompletes s := by
  intro n t ht _
  cases n with
  | zero => exact ⟨0, by simp [stateAt, cutShortNow, h]⟩
  | succ n => rw [stateAt_of_stopsNow h] at ht; cases ht

end Sys2Proof.Machine
end

