-- ==== Sys2Proof/Tests/Slice0.lean ====
section
/-! SUPPORT. The model's own tests: expected values from spec/95_test_vectors.md and the encodings of
30_encoding, and a witness for the hypotheses of every statement. -/

open Sys2Proof Sys2Proof.Machine

namespace Sys2Proof.Tests

/-! ### Small states -/

/-- Reset with a known HIE and OVC, so that `decide` can compute in it. -/
def quiet : State := { State.reset with hostside := { hie := false, ovc := some 5 } }

/-- IM between phases. -/
def imAt (ctx : Ctx) (held : Bool) (code : Code) (data : Byte) : State :=
  quiet.setIm { Im.reset with ctx := ctx, held := held, code := code, data := data }

/-- IM with an accepted command, and its latched byte. -/
def pending (c : Cmd) (b : Byte) (ctx : Ctx) (held : Bool) (code : Code) : State :=
  quiet.setIm { Im.reset with ctx := ctx, held := held, code := code, data := b, busy := true, pend := some (c, b) }

/-- TC at a count. -/
def tcAt (run ovie : Bool) (cnt : Byte) (ovf : Bool) : State :=
  quiet.setTc { run := run, ovie := ovie, cnt := cnt, ovf := ovf, ps := 0 }

/-- The state with the next pick listed. -/
def picked (p : Pick) (s : State) : State := s.setInputs { s.inputs with sched := [p] }

/-- HOST picked, about to run one statement. -/
def hostAt (st : Stmt) (s : State) : State :=
  (picked .host s).setHost { s.host with prog := [{ label := none, stmt := st }], pos := 0 }

/-- The bus's next answers. -/
def answers (a : StartAns) (b c : AckAns) (d : Option Byte) (s : State) : State :=
  s.setInputs { s.inputs with starts := [a], addrs := [b], txs := [c], rxs := [d] }

/-- Part of a next state. -/
def field {α : Type} (o : Outcome) (f : State → α) : Option α :=
  match o with
  | .next t => some (f t)
  | .fault _ => none
  | .refused _ => none

def stat (s : State) : Byte := statByte s.im

/-- What a vector of 95_test_vectors 2.3 shows after a completion. -/
def phaseView (s : State) : Byte × Ctx × List BusEvent := (stat s, s.im.ctx, s.trace)

/-! ### Well-formedness refuses each ill-formed term -/

theorem test_wf_procedures :
    programWf (imWrite (some 3) 0x28 [0x55, 0xAB]) = true ∧ programWf (imRead none 0x28 3) = true ∧
    programWf clockInit = true ∧ programWf nowUs = true ∧ programWf (configure 400000 16000000) = true ∧
    (boot 400000 16000000).all programWf = true := by
  decide

theorem test_wf_duplicate_label :
    labelsDistinct [labelled 1 (.goto 1), labelled 1 (.goto 1)] = false ∧
    programWf [labelled 1 (.goto 1), labelled 1 (.goto 1)] = false := by decide

theorem test_wf_missing_label :
    jumpsResolve [labelled 1 (.goto 2)] = false ∧ programWf [labelled 1 (.goto 2)] = false := by decide

theorem test_wf_rising_field :
    (Expr.field (.loc 0) 0 7).wf = false ∧ programWf [plain (.assign 0 (.field (.loc 0) 0 7))] = false := by
  decide

/-! ### Decoding and encoding (95_test_vectors 2.1; words written out from 30_encoding R80, R81, R84) -/

theorem test_decode_im_reads :
    decode 0b0000_0000_0000#12 = .instr .rdImDiv ∧ decode 0b0001_0000_0000#12 = .instr .rdImData ∧
    decode 0b0010_0000_0000#12 = .instr .rdImCmd ∧ decode 0b0011_0000_0000#12 = .instr .rdImStat ∧
    decode 0x0FF#12 = .instr .rdImDiv := by decide

theorem test_decode_im_writes :
    decode 0b1000_0000_1100#12 = .instr (.wrImDiv 12) ∧ decode 0b1001_0101_0000#12 = .instr (.wrImData 0x50) ∧
    decode 0b1011_1111_1111#12 = .instr (.wrImStat 0xFF) := by decide

theorem test_decode_commands :
    decode 0b1010_0000_0000#12 = .instr .cmdNop ∧ decode 0b1010_0000_0001#12 = .instr .cmdStart ∧
    decode 0b1010_0000_0010#12 = .instr .cmdStop ∧ decode 0b1010_0000_0011#12 = .instr .cmdSendAddr ∧
    decode 0b1010_0000_0100#12 = .instr .cmdSendData ∧ decode 0b1010_0000_0101#12 = .instr .cmdRecvAck ∧
    decode 0b1010_0000_0110#12 = .instr .cmdRecvNack := by decide

theorem test_decode_reserved_commands :
    decode 0xA07#12 = .rejected (.reservedCommand 7) ∧ decode 0xA08#12 = .rejected (.reservedCommand 8) ∧
    decode 0xA81#12 = .rejected (.reservedCommand 0x81) := by decide

theorem test_decode_tc :
    decode 0b0100_0000_0000#12 = .instr .rdTcCtrl ∧ decode 0b1100_0000_0011#12 = .instr (.wrTcCtrl 3) ∧
    decode 0b0101_0000_0000#12 = .instr .rdTcCnt ∧ decode 0b1101_1000_0000#12 = .instr (.wrTcCnt 0x80) ∧
    decode 0b0110_0000_0000#12 = .instr .rdTcFlag ∧ decode 0b1110_0000_0001#12 = .instr (.wrTcFlag 1) := by decide

theorem test_decode_rsvd7 :
    decode 0b0111_1010_1010#12 = .instr .rdRsvd7 ∧ decode 0b1111_0001_0010#12 = .instr (.wrRsvd7 0x12) := by decide

theorem test_encode :
    encode (.wrImDiv 12) = 0x80C ∧ encode .cmdSendAddr = 0xA03 ∧ encode .rdImStat = 0x300 ∧
    encode (.wrTcFlag 1) = 0xE01 ∧ encode (.wrRsvd7 0x12) = 0xF12 := by decide

theorem test_decode_table_word :
    decodeTableWord 16 0x80C = some (.wrImDiv 12) ∧ decodeTableWord 16 0xA07 = none ∧
    decodeTableWord 16 0x1000 = none := by decide

/-- The word is run by the very next step, from reset (T-R3 through HOST). -/
theorem test_fetched_word_runs :
    field (step (State.reset.withFetchWord 16 0x8FF)) (·.im.div) = some 0xFF := by decide

/-! ### IM's registers (95_test_vectors 2.2) -/

theorem test_rd_im_div : field (exec .rdImDiv (quiet.setIm { Im.reset with div := 0xFF })) (·.rdata) = some 0xFF := by
  decide

theorem test_wr_im_div : field (exec (.wrImDiv 72) (pending .start 0 .none false .idle)) (fun t => (t.im.div, t.fault))
    = some (72, none) := by decide

theorem test_rd_im_data : field (exec .rdImData (imAt .none false .idle 0x3C)) (·.rdata) = some 0x3C := by decide

theorem test_rd_im_data_busy :
    field (exec .rdImData (pending .start 0x3C .none false .idle)) (fun t => (t.im.data, t.fault))
      = some (0x3C, none) := by decide

theorem test_wr_im_data_busy :
    field (exec (.wrImData 0) (pending .sendAddr 0x50 .addr true .startSent)) (fun t => (t.im.data, t.fault))
      = some (0x50, some .busyWrite) := by decide

theorem test_wr_im_data : field (exec (.wrImData 0x51) quiet) (·.im.data) = some 0x51 := by decide

theorem test_rd_im_cmd : field (exec .rdImCmd (imAt .failed true .phaseFailed 0xFF)) (·.rdata) = some 0 := by decide

/-- T-C38: the code of the last completed phase is kept while a command is pending. -/
theorem test_rd_im_stat :
    field (exec .rdImStat (pending .sendAddr 0x50 .addr true .startSent)) (·.rdata) = some 0x61 := by decide

theorem test_wr_im_stat :
    field (exec (.wrImStat 0) (quiet.setIm { Im.reset with done := true, held := true, code := .startSent, ctx := .addr }))
      stat = some 0xA1 := by decide

theorem test_rd_rsvd7 : field (exec .rdRsvd7 (tcAt true true 0xFF true)) (·.rdata) = some 0 := by decide

theorem test_wr_rsvd7 : field (exec (.wrRsvd7 0x12) quiet) (fun t => decide (t = quiet)) = some true := by decide

/-! ### Phase commands (95_test_vectors 2.3) -/

/-- T-C33. -/
theorem test_nop_busy : field (exec .cmdNop (pending .start 0 .none false .idle)) (fun t => (stat t, t.fault))
    = some (0x40, none) := by decide

/-- T-C1, T-C12. -/
theorem test_start :
    field (exec .cmdStart quiet) stat = some 0x40 ∧
    field (engineStep (answers .ok .ack .ack none (pending .start 0 .none false .idle))) phaseView
      = some (0xA1, .addr, [.start .ok]) ∧
    field (engineStep (answers .ok .ack .ack none (pending .start 0 .addr true .startSent))) phaseView
      = some (0xA2, .addr, [.rstart .ok]) := by decide

/-- T-C2, T-C34. -/
theorem test_start_fails :
    field (engineStep (answers .err .ack .ack none (pending .start 0 .none false .idle))) phaseView
      = some (0xA7, .failed, [.start .err]) ∧
    field (exec .cmdStart (pending .start 0 .none false .idle)) (·.fault) = some (some .busyWrite) := by decide

/-- T-C3, T-C27. -/
theorem test_stop :
    field (exec .cmdStop (imAt .mrEnd true .dataLast 0)) stat = some 0x66 ∧
    field (engineStep (pending .stop 0 .none false .idle)) phaseView = some (0x80, .none, []) ∧
    field (engineStep (pending .stop 0 .mrEnd true .dataLast)) phaseView = some (0x80, .none, [.stop]) := by decide

/-- T-C8, T-C9, T-C11. -/
theorem test_send_addr :
    field (exec .cmdSendAddr (imAt .addr true .startSent 0x50)) stat = some 0x61 ∧
    field (engineStep (answers .ok .ack .ack none (pending .sendAddr 0x50 .addr true .startSent))) phaseView
      = some (0xA3, .mt, [.addr 0x28 false .ack]) ∧
    field (engineStep (answers .ok .ack .ack none (pending .sendAddr 0x51 .addr true .startSent))) phaseView
      = some (0xA4, .mr, [.addr 0x28 true .ack]) ∧
    field (engineStep (answers .ok .err .ack none (pending .sendAddr 0xFF .addr true .startSent))) phaseView
      = some (0xA7, .failed, [.addr 0x7F true .err]) := by decide

/-- T-C4, T-C19. -/
theorem test_send_addr_illegal :
    field (exec .cmdSendAddr quiet) phaseView = some (0x87, .failed, []) ∧
    field (exec .cmdSendAddr (imAt .mt true .dataAck 0)) phaseView = some (0xA7, .failed, []) := by decide

/-- T-C15, T-C16. -/
theorem test_send_data :
    field (exec .cmdSendData (imAt .mt true .addrWAck 0x55)) stat = some 0x63 ∧
    field (engineStep (answers .ok .ack .ack none (pending .sendData 0x55 .mt true .addrWAck))) phaseView
      = some (0xA5, .mt, [.tx 0x55 .ack]) ∧
    field (engineStep (answers .ok .ack .nack none (pending .sendData 0 .mt true .dataAck))) phaseView
      = some (0xA7, .failed, [.tx 0 .nack]) := by decide

/-- T-C13, T-C25. -/
theorem test_send_data_illegal :
    field (exec .cmdSendData (imAt .addr true .startSent 0)) phaseView = some (0xA7, .failed, []) ∧
    field (exec .cmdSendData (imAt .mr true .dataAck 0)) phaseView = some (0xA7, .failed, []) := by decide

/-- T-C21, T-C23. -/
theorem test_recv_ack :
    field (exec .cmdRecvAck (imAt .mr true .addrRAck 0)) stat = some 0x64 ∧
    field (engineStep (answers .ok .ack .ack (some 0x3C) (pending .recvAck 0 .mr true .addrRAck)))
      (fun t => (phaseView t, t.im.data)) = some ((0xA5, .mr, [.rx (some 0x3C) .ack]), 0x3C) ∧
    field (engineStep (answers .ok .ack .ack none (pending .recvAck 0 .mr true .addrRAck))) phaseView
      = some (0xA7, .failed, [.rx none .err]) := by decide

/-- T-C18, T-C26. -/
theorem test_recv_ack_illegal :
    field (exec .cmdRecvAck (imAt .mt true .dataAck 0)) phaseView = some (0xA7, .failed, []) ∧
    field (exec .cmdRecvAck (imAt .mrEnd true .dataLast 0)) phaseView = some (0xA7, .failed, []) := by decide

/-- T-C22, T-C24. -/
theorem test_recv_nack :
    field (exec .cmdRecvNack (imAt .mr true .dataAck 0)) stat = some 0x65 ∧
    field (engineStep (answers .ok .ack .ack (some 0xA0) (pending .recvNack 0 .mr true .dataAck)))
      (fun t => (phaseView t, t.im.data)) = some ((0xA6, .mrEnd, [.rx (some 0xA0) .nack]), 0xA0) ∧
    field (engineStep (answers .ok .ack .ack none (pending .recvNack 0 .mr true .addrRAck))) phaseView
      = some (0xA7, .failed, [.rx none .err]) := by decide

/-- T-C7. -/
theorem test_recv_nack_illegal : field (exec .cmdRecvNack quiet) phaseView = some (0x87, .failed, []) := by decide

/-- T-C35, F-8: the reserved command is seen before BUSY. -/
theorem test_reserved_command_busy :
    field (hostAccess 8 0xA07 none (pending .start 0 .none false .idle)) (·.fault) = some (some .reservedCmd) ∧
    field (hostAccess 8 0xA09 none (pending .start 0 .none false .idle)) (·.fault) = some (some .reservedCmd) := by
  decide

/-- F-4. -/
theorem test_width : field (hostAccess 16 0x000 none quiet) (·.fault) = some (some .width) := by decide

/-! ### The counter, the tick and the handler (95_test_vectors 2.5, 2.6) -/

theorem test_rd_tc_ctrl : field (exec .rdTcCtrl (tcAt false true 0 false)) (·.rdata) = some 2 := by decide

theorem test_wr_tc_ctrl :
    field (exec (.wrTcCtrl 7) quiet) (fun t => ctrlByte t.tc) = some 3 ∧
    field (exec (.wrTcCtrl 2) (tcAt true false 9 true)) (fun t => (ctrlByte t.tc, t.tc.cnt, irqOvf t.tc))
      = some (2, 9, true) := by decide

theorem test_rd_tc_cnt : field (exec .rdTcCnt (tcAt true true 254 false)) (·.rdata) = some 254 := by decide

theorem test_wr_tc_cnt : field (exec (.wrTcCnt 0x80) (tcAt true true 3 false)) (·.tc.cnt) = some 3 := by decide

/-- T-T8. -/
theorem test_rd_tc_flag :
    field (exec .rdTcFlag (tcAt true true 0 true)) (fun t => (t.rdata, t.tc.ovf)) = some (1, true) := by decide

/-- T-T6, T-T7. -/
theorem test_wr_tc_flag :
    field (exec (.wrTcFlag 1) (tcAt true true 0 true)) (·.tc.ovf) = some false ∧
    field (exec (.wrTcFlag 0) (tcAt true true 0 true)) (·.tc.ovf) = some true ∧
    field (exec (.wrTcFlag 0xFF) (tcAt true true 0 true)) (·.tc.ovf) = some false := by decide

/-- T-T2, T-T3, T-T4, T-T5. -/
theorem test_tick :
    field (tickStep (tcAt true true 254 false)) (fun t => (t.tc.cnt, t.tc.ovf)) = some (255, false) ∧
    field (tickStep (tcAt true true 255 false)) (fun t => (t.tc.cnt, t.tc.ovf)) = some (0, true) ∧
    field (tickStep (tcAt true true 255 true)) (fun t => (t.tc.cnt, t.tc.ovf)) = some (0, true) ∧
    field (tickStep (tcAt false true 255 false)) (·.tc.cnt) = some 255 := by decide

/-- The handler clears OVF and counts the wrap in one step; with `HIE = 0` it has no step. -/
theorem test_handler :
    field (handlerStep ((tcAt true true 0 true).setHostSide { hie := true, ovc := some 5 }))
      (fun t => (t.tc.ovf, t.hostside.ovc)) = some (false, some 6) ∧
    field (handlerStep (tcAt true true 0 true)) (fun t => (t.tc.ovf, t.hostside.ovc)) = some (true, some 5) := by
  decide

/-! ### The host's procedures -/

/-- `ISSUE NOP` presents 0xA00 (R84, R94), which changes nothing while a command is pending (T-C33). -/
theorem test_issue_nop :
    issue (CmdName.expr .nop) = [plain (.wr .imCmd (.lit 0))] ∧
    field (execStmt (.wr .imCmd (CmdName.expr .nop)) (pending .start 0 .none false .idle))
      (fun t => (stat t, t.fault)) = some (0x40, none) := by decide

/-- `SENDADDR a, dir` and `SENDBYTE b` on host locals: the address byte 0x51 of 0x28 and read (R85), and a byte. -/
theorem test_send_of_locals :
    let s := (quiet.setLocal 0 0x28).setLocal 1 1
    (sendAddr (.loc 0) (.loc 1)).head?.map (fun l => field (execStmt l.stmt s) (·.im.data)) = some (some 0x51) ∧
    (sendByte (.loc 0)).head?.map (fun l => field (execStmt l.stmt s) (·.im.data)) = some (some 0x28) := by decide

/-- A reset in a faulted state clears FAULT and drops the pending command; without it the fault stays (R45, R230). -/
theorem test_reset_of_fault :
    field (step (picked .reset ((pending .start 0 .addr true .startSent).raise .busyWrite)))
      (fun t => (t.fault, t.im, t.trace)) = some (none, Im.reset, []) ∧
    field (step (picked .engine ((pending .start 0 .addr true .startSent).raise .busyWrite))) (·.fault) = none := by
  decide

/-- HOST picked, in a program, at a position. -/
def inProgram (p : Program) (pos : Nat) : State :=
  (picked .host quiet).setHost { quiet.host with prog := p, pos := pos }

/-- Steps 3 and 4 of `now_us` are seen in its calls, within a longer program too, and not elsewhere (R243). -/
theorem test_now_us_steps :
    readsCountNow (inProgram nowUs 2) = true ∧ readsFlagNow (inProgram nowUs 3) = true ∧
    readsCountNow (inProgram (clockInit ++ nowUs) 7) = true ∧ readsFlagNow (inProgram nowUs 2) = false ∧
    readsCountNow (hostAt (.rd tVar .tcCnt) quiet) = false ∧
    readsFlagNow (hostAt (.rd fVar .tcFlag) quiet) = false := by decide

/-- A state in which a fault has stopped a run with a command pending. -/
def stopped : State := picked .engine ((pending .start 0 .addr true .startSent).raise .busyWrite)

/-- A run that a fault stops while a command is pending is no stuck bus: it meets ENGINE_COMPLETES (R200, R246). -/
theorem test_fault_meets_engine_completes : EngineCompletes stopped ∧ stopped.im.busy = true :=
  ⟨engineCompletes_of_stopsNow rfl, rfl⟩

/-- T-D1 to T-D10. -/
theorem test_divider :
    divider 400000 16000000 = 12 ∧ divider 100000 16000000 = 72 ∧ divider 300000 16000000 = 19 ∧
    divider 400001 16000000 = 12 ∧ divider 399999 16000000 = 13 ∧ divider 1000000 16000000 = 0 ∧
    divider 999999 16000000 = 1 ∧ divider 2000000 16000000 = 0 ∧ divider 10000 16000000 = 255 ∧
    divider 400000 8000000 = 2 := by decide

/-- The bus clocks of T-D1, T-D3, T-D5 and T-D9. -/
theorem test_bus_clock :
    busClock 16000000 12 = 400000 ∧ busClock 16000000 19 = 296296 ∧ busClock 16000000 13 = 380952 ∧
    busClock 16000000 255 = 30418 := by decide

/-- T-D11, F-7. -/
theorem test_bad_config :
    configure 0 16000000 = [plain .raiseBadConfig] ∧ configure 400000 0 = [plain .raiseBadConfig] ∧
    field (execStmt .raiseBadConfig quiet) (·.fault) = some (some .badConfig) := by decide

/-- N3, N4, N5, N8, N9 and N10. -/
theorem test_combine :
    combineMicros 5 10 0 = 645 ∧ combineMicros 5 3 1 = 769 ∧ combineMicros 5 255 1 = 767 ∧
    combineMicros 0xFFFFFFFFFFFFFFFF 7 0 = 0x7FFFFFFFFFFFFF83 ∧ combineMicros 0xFFFFFFFFFFFFFFFF 7 1 = 3 ∧
    combineMicros 0x100000000000000 0 0 = 0 := by decide

/-- F-5 at step 2 of `now_us`, F-6, and a guarded store. -/
theorem test_ovc_access :
    field (execStmt (.loadOvc mVar) (quiet.setHostSide { hie := false, ovc := none })) (·.fault)
      = some (some .ovcUnwritten) ∧
    field (execStmt (.storeOvc (.lit 0)) (quiet.setHostSide { hie := true, ovc := some 5 })) (·.fault)
      = some (some .ovcUnguarded) ∧
    field (execStmt (.storeOvc (.lit 0)) quiet) (·.hostside.ovc) = some (some 0) := by decide

/-- T-H7: the prior state is restored, not set to 1. -/
theorem test_critical_section :
    field (execStmt (.csEnter 0) quiet) (fun t => (t.hostside.hie, t.localVal 0)) = some (false, 0) ∧
    field (execStmt (.csExit 0) (quiet.setLocal 0 0)) (·.hostside.hie) = some false ∧
    field (execStmt (.csExit 0) (quiet.setLocal 0 1)) (·.hostside.hie) = some true := by decide

/-! ### Witnesses: for each statement with hypotheses, a state and operands that meet them all -/

theorem witness_AssertedResetGivesResetValues :
    (picked .reset quiet).nextPick = .reset ∧
    (let s := picked .reset (quiet.raise .width)
     s.nextPick = .reset ∧ s.fault = some .width) := by decide

theorem witness_DecodeOfEncodeIsTheInstruction :
    Instr.wf .cmdStop = true ∧ Instr.wf (.wrImDiv 0) = true ∧ Instr.wf (.wrRsvd7 255) = true := ⟨rfl, rfl, rfl⟩

theorem witness_EncodeOfDecodeIsTheWord :
    decode 0x0FF#12 = .instr .rdImDiv ∧ decode 0xA06#12 = .instr .cmdRecvNack ∧
    decode 0xFFF#12 = .instr (.wrRsvd7 255) := by decide

theorem witness_DecoderRejectsOnlyReservedCommands :
    (∃ e, decode 0xA07#12 = .rejected e) ∧ (∃ e, decode 0xA08#12 = .rejected e) ∧
    (∃ e, decode 0xAFF#12 = .rejected e) ∧ decode 0xA06#12 = .instr .cmdRecvNack ∧
    decode 0x207#12 = .instr .rdImCmd := ⟨⟨_, rfl⟩, ⟨_, rfl⟩, ⟨_, rfl⟩, rfl, rfl⟩

theorem witness_StepRunsTheDecodedAccess :
    let s := hostAt (.access 8 0x80C#12) quiet
    s.fault = none ∧ s.nextPick = .host ∧ currentLine s = some ⟨none, .access 8 0x80C#12⟩ ∧
    decode 0x80C#12 = .instr (.wrImDiv 12) := by decide

theorem witness_ReadLineAnswersIntoItsLocal :
    let s := hostAt (.rd 3 .imStat) quiet
    s.fault = none ∧ s.nextPick = .host ∧ currentLine s = some ⟨none, .rd 3 .imStat⟩ := by decide

theorem witness_WriteLinePresentsTheExpressionsByte :
    let s := hostAt (.wr .imDiv (.lit 256)) quiet
    s.fault = none ∧ s.nextPick = .host ∧ currentLine s = some ⟨none, .wr .imDiv (.lit 256)⟩ := by decide

theorem witness_OtherWidthsRaiseWidth : (0 : Nat) ≠ 8 ∧ (7 : Nat) ≠ 8 ∧ (9 : Nat) ≠ 8 ∧ (16 : Nat) ≠ 8 := by decide

theorem witness_ReservedCommandFaultsBeforeBusy :
    (0x07#8).toNat % 8 = 7 ∧ (0x08#8).toNat / 8 ≠ 0 ∧ (0xFF#8).toNat / 8 ≠ 0 ∧ (0x06#8).toNat / 8 = 0 := by decide

theorem witness_FirstFaultIsKeptAndStopsTheRun :
    quiet.fault = none ∧ (quiet.raise .width).fault = some .width ∧
    (let s := picked .host (quiet.raise .width)
     s.fault = some .width ∧ s.nextPick ≠ .reset) := by decide

theorem witness_ReadOfDataIsFreeOnlyWhileBusy :
    quiet.im.busy = false ∧ (pending .recvAck 0 .mr true .dataAck).im.busy = true := ⟨rfl, rfl⟩

theorem witness_ReadsAreIdempotent :
    (Instr.rdImData = .rdImData → quiet.im.busy = false) ∧ (∃ t, exec .rdImData quiet = .next t) ∧
    (Instr.rdTcFlag ≠ .rdImData) ∧ (∃ t, exec .rdTcFlag (tcAt true true 0 true) = .next t) :=
  ⟨fun _ => rfl, ⟨_, rfl⟩, nofun, ⟨_, rfl⟩⟩

theorem witness_WriteOfDataStoresUnlessBusy :
    quiet.im.busy = false ∧ (pending .sendAddr 0x50 .addr true .startSent).im.busy = true := ⟨rfl, rfl⟩

theorem witness_WriteOfTcCtrlSetsRunAndOvie :
    ∃ t, exec (.wrTcCtrl 2) (tcAt true false 9 true) = .next t ∧ (tcAt true false 9 true).tc.ovf = true :=
  ⟨_, rfl, rfl⟩

theorem witness_WriteOfTcFlagClearsByOne :
    (1#8).toNat % 2 = 1 ∧ (255#8).toNat % 2 = 1 ∧ (0#8).toNat % 2 = 0 ∧ (254#8).toNat % 2 = 0 := by decide

theorem witness_IllegalInContextCommandFailsAtOnce :
    quiet.im.busy = false ∧ legal quiet.im.ctx .sendAddr = false ∧ legal quiet.im.ctx .sendData = false ∧
    legal (imAt .mt true .dataAck 0).im.ctx .recvAck = false ∧
    legal (imAt .mrEnd true .dataLast 0).im.ctx .recvNack = false := by decide

theorem witness_CommandWhileBusyRaisesBusyWrite :
    Instr.cmdStop ∈ [Instr.cmdStart, .cmdStop, .cmdSendAddr, .cmdSendData, .cmdRecvAck, .cmdRecvNack] ∧
    (pending .start 0 .none false .idle).im.busy = true := by decide

theorem witness_StartIssuesStartOrRepeatedStart :
    quiet.im.busy = false ∧
    (let s := answers .ok .ack .ack none (pending .start 0 .addr true .startSent)
     s.im.busy = true ∧ s.im.pend = some (.start, 0) ∧ s.startAnswer = .ok ∧ s.im.held = true) ∧
    (let s := answers .err .ack .ack none (pending .start 0 .none false .idle)
     s.im.busy = true ∧ s.im.pend = some (.start, 0) ∧ s.startAnswer = .err ∧ s.im.held = false) := by decide

theorem witness_StopReleasesTheBus :
    quiet.im.busy = false ∧
    (let s := pending .stop 0 .mrEnd true .dataLast
     s.im.busy = true ∧ s.im.pend = some (.stop, 0) ∧ s.im.held = true) ∧
    (let s := pending .stop 0 .none false .idle
     s.im.busy = true ∧ s.im.pend = some (.stop, 0) ∧ s.im.held = false) := by decide

theorem witness_SendAddrSendsTheLatchedAddress :
    (imAt .addr true .startSent 0x50).im.busy = false ∧ (imAt .addr true .startSent 0x50).im.ctx = .addr ∧
    (let s := answers .ok .ack .ack none (pending .sendAddr 0x50 .addr true .startSent)
     s.im.busy = true ∧ s.im.pend = some (.sendAddr, 0x28#7 ++ BitVec.ofBool false) ∧
       s.addrAnswer 0x28 false = .ack) ∧
    (let s := answers .ok .nack .ack none (pending .sendAddr 0xFF .addr true .startSent)
     s.im.busy = true ∧ s.im.pend = some (.sendAddr, 0x7F#7 ++ BitVec.ofBool true) ∧
       s.addrAnswer 0x7F true ≠ .ack) := by decide

theorem witness_SendDataSendsTheLatchedByte :
    (imAt .mt true .addrWAck 0x55).im.busy = false ∧ (imAt .mt true .addrWAck 0x55).im.ctx = .mt ∧
    (let s := answers .ok .ack .ack none (pending .sendData 0x55 .mt true .addrWAck)
     s.im.busy = true ∧ s.im.pend = some (.sendData, 0x55) ∧ s.txAnswer 0x55 = .ack) ∧
    (let s := answers .ok .ack .err none (pending .sendData 0xFF .mt true .dataAck)
     s.im.busy = true ∧ s.im.pend = some (.sendData, 0xFF) ∧ s.txAnswer 0xFF ≠ .ack) := by decide

theorem witness_RecvAckReceivesAByteAndAcks :
    (imAt .mr true .addrRAck 0).im.busy = false ∧ (imAt .mr true .addrRAck 0).im.ctx = .mr ∧
    (let s := answers .ok .ack .ack (some 0x3C) (pending .recvAck 0 .mr true .addrRAck)
     s.im.busy = true ∧ s.im.pend = some (.recvAck, 0) ∧ s.rxAnswer = some 0x3C) ∧
    (let s := answers .ok .ack .ack none (pending .recvAck 0 .mr true .addrRAck)
     s.im.busy = true ∧ s.im.pend = some (.recvAck, 0) ∧ s.rxAnswer = none) := by decide

theorem witness_RecvNackReceivesTheLastByte :
    (imAt .mr true .dataAck 0).im.busy = false ∧ (imAt .mr true .dataAck 0).im.ctx = .mr ∧
    (let s := answers .ok .ack .ack (some 0xA0) (pending .recvNack 0 .mr true .dataAck)
     s.im.busy = true ∧ s.im.pend = some (.recvNack, 0) ∧ s.rxAnswer = some 0xA0) ∧
    (let s := answers .ok .ack .ack none (pending .recvNack 0 .mr true .dataAck)
     s.im.busy = true ∧ s.im.pend = some (.recvNack, 0) ∧ s.rxAnswer = none) := by decide

theorem witness_ListedBusAnswersAreTakenInOrder :
    let s := answers .err .nack .ack (some 7) quiet
    s.inputs.starts = .err :: [] ∧ s.inputs.addrs = .nack :: [] ∧ s.inputs.txs = .ack :: [] ∧
    s.inputs.rxs = some 7 :: [] := by decide

theorem witness_EngineStepEndsInFinish :
    quiet.im.busy = false ∧ (pending .stop 0 .mrEnd true .dataLast).im.busy = true := ⟨rfl, rfl⟩

theorem witness_TraceGrowsByOneEventPerCompletion :
    (let s := pending .stop 0 .none false .idle
     s.im.busy = true ∧ s.im.pend = some (.stop, 0) ∧ ∃ t, engineStep s = .next t) ∧
    (let s := pending .sendData 0x55 .mt true .addrWAck
     s.im.busy = true ∧ s.im.pend = some (.sendData, 0x55) ∧ ∃ t, engineStep s = .next t) ∧
    (let s := picked .tick (tcAt true true 0 false)
     s.nextPick ≠ .engine ∧ s.nextPick ≠ .reset ∧ ∃ t, step s = .next t) :=
  ⟨⟨rfl, rfl, _, rfl⟩, ⟨rfl, rfl, _, rfl⟩, ⟨by decide, by decide, _, rfl⟩⟩

theorem quiet_inv : quiet.im.Inv := ⟨by decide, by decide, by decide, by decide, by decide⟩

theorem witness_StepKeepsTheInvariantsOfIm :
    (∃ s t : State, s.im.Inv ∧ step s = .next t ∧ t.im.busy = true) ∧
    (∃ s t : State, s.im.Inv ∧ step s = .next t ∧ t.im.ctx = .failed ∧ t.im.held = false) :=
  ⟨⟨hostAt (.access 8 0xA01#12) quiet, _, quiet_inv, rfl, rfl⟩,
   ⟨hostAt (.access 8 0xA04#12) quiet, _, quiet_inv, rfl, rfl, rfl⟩⟩

theorem witness_StepKeepsCodeFittingContext :
    ∃ s t : State, s.im.Inv ∧ codeFits s.im.ctx s.im.code = true ∧ step s = .next t ∧ t.im.code = .phaseFailed :=
  ⟨hostAt (.access 8 0xA03#12) quiet, _, quiet_inv, rfl, rfl, rfl⟩

theorem witness_HeldIsSetByStartAndClearedByStop :
    (∃ s t : State, step s = .next t ∧ s.im.held = false ∧ t.im.held = true) ∧
    (∃ s t : State, step s = .next t ∧ s.im.held = true ∧ t.im.held = false ∧ s.nextPick = .engine) ∧
    (∃ s t : State, step s = .next t ∧ s.im.held = true ∧ t.im.held = false ∧ s.nextPick = .reset) :=
  ⟨⟨picked .engine (pending .start 0 .none false .idle), _, rfl, rfl, rfl⟩,
   ⟨picked .engine (pending .stop 0 .mrEnd true .dataLast), _, rfl, rfl, rfl, rfl⟩,
   ⟨picked .reset (imAt .mt true .dataAck 0), _, rfl, rfl, rfl, rfl⟩⟩

theorem witness_PendingCommandWaitsForTheEngine :
    ∃ s t : State, step s = .next t ∧ s.im.busy = true ∧ s.nextPick ≠ .engine ∧ s.nextPick ≠ .reset ∧
      t.im.div ≠ s.im.div :=
  ⟨hostAt (.access 8 0x80C#12) (pending .start 0 .none false .idle), _, rfl, rfl, by decide, by decide, by decide⟩

theorem witness_EngineDoesNotSeeTheCounter :
    ∃ s t : State, engineStep s = .next t ∧ t.trace = [.stop] :=
  ⟨pending .stop 0 .mrEnd true .dataLast, _, rfl, rfl⟩

theorem witness_TickCountsAndWrapsWithOvf :
    ((tcAt true true 255 false).tc.run = true ∧ (tcAt true true 255 false).tc.cnt = 255) ∧
    ((tcAt true true 254 false).tc.run = true ∧ (tcAt true true 254 false).tc.cnt ≠ 255) ∧
    (tcAt false true 255 false).tc.run = false := by decide

theorem witness_WrapAndOverflowAreVisibleTogether :
    ∃ s t : State, step s = .next t ∧ s.tc.ovf = false ∧ t.tc.ovf = true ∧ s.tc.cnt = 255 ∧ t.tc.cnt = 0 ∧
      s.nextPick ≠ .reset :=
  ⟨picked .tick (tcAt true true 255 false), _, rfl, rfl, rfl, rfl, rfl, by decide⟩

theorem witness_CounterChangesOnlyByTicks :
    (∃ s t : State, step s = .next t ∧ s.nextPick ≠ .reset ∧ t.tc.cnt ≠ s.tc.cnt) ∧
    (∃ s t : State, step s = .next t ∧ s.nextPick ≠ .reset ∧ t.tc.cnt = s.tc.cnt) :=
  ⟨⟨picked .tick (tcAt true true 255 false), _, rfl, by decide, by decide⟩,
   ⟨picked .tick (tcAt false true 255 false), _, rfl, by decide, rfl⟩⟩

/-- The notification's state: pending, enabled, unmasked. -/
def notified (ovc : Option Word64) : State := (tcAt true true 0 true).setHostSide { hie := true, ovc := ovc }

theorem witness_HandlerClearsOvfAndCountsTheWrap :
    (let s := notified (some 0xFFFFFFFFFFFFFFFF)
     s.tc.ovf = true ∧ s.tc.ovie = true ∧ s.hostside.hie = true ∧
       s.hostside.ovc = some 0xFFFFFFFFFFFFFFFF) ∧
    (let s := notified none
     s.tc.ovf = true ∧ s.tc.ovie = true ∧ s.hostside.hie = true ∧ s.hostside.ovc = none) ∧
    (tcAt true true 0 true).hostside.hie = false ∧ (tcAt true true 0 false).tc.ovf = false ∧
    (tcAt true false 0 true).tc.ovie = false := by decide

theorem witness_OvcIsWrittenOnlyByHandlerAndStore :
    (∃ s t : State, step s = .next t ∧ t.hostside.ovc ≠ s.hostside.ovc ∧ s.nextPick = .handler) ∧
    (∃ s t : State, step s = .next t ∧ t.hostside.ovc ≠ s.hostside.ovc ∧ s.nextPick = .reset) ∧
    (∃ s t : State, step s = .next t ∧ t.hostside.ovc ≠ s.hostside.ovc ∧ s.nextPick = .host) :=
  ⟨⟨picked .handler (notified (some 5)), _, rfl, by decide, rfl⟩,
   ⟨picked .reset quiet, _, rfl, by decide, rfl⟩,
   ⟨hostAt (.storeOvc (.lit 0)) quiet, _, rfl, by decide, rfl⟩⟩

theorem witness_HieChangesOnlyByHostSteps :
    (∃ s t : State, step s = .next t ∧ t.hostside.hie ≠ s.hostside.hie ∧ s.nextPick = .reset) ∧
    (∃ s t : State, step s = .next t ∧ t.hostside.hie ≠ s.hostside.hie ∧
      currentLine s = some ⟨none, .csEnter 0⟩) ∧
    (∃ s t : State, step s = .next t ∧ t.hostside.hie ≠ s.hostside.hie ∧
      currentLine s = some ⟨none, .csExit 0⟩) ∧
    (∃ s t : State, step s = .next t ∧ t.hostside.hie ≠ s.hostside.hie ∧
      currentLine s = some ⟨none, .setHie true⟩) := by
  refine ⟨⟨picked .reset (quiet.setHostSide { hie := !Config.hieReset, ovc := none }), _, rfl, ?_, rfl⟩,
    ⟨hostAt (.csEnter 0) (notified (some 5)), _, rfl, by decide, rfl⟩,
    ⟨hostAt (.csExit 0) (quiet.setLocal 0 1), _, rfl, by decide, rfl⟩,
    ⟨hostAt (.setHie true) quiet, _, rfl, by decide, rfl⟩⟩
  show Config.hieReset ≠ !Config.hieReset
  cases Config.hieReset <;> decide

theorem witness_CriticalSectionRestoresThePriorState :
    (quiet.setLocal 0 0).localVal 0 = quiet.hostside.hie.toNat ∧
    (quiet.setLocal 0 1).localVal 0 = (notified none).hostside.hie.toNat := by decide

theorem witness_OvcAccessIsGuarded :
    (notified (some 5)).hostside.hie = true ∧
    (let s := quiet.setHostSide { hie := false, ovc := none }
     s.hostside.hie = false ∧ s.hostside.ovc = none) ∧
    (quiet.hostside.hie = false ∧ quiet.hostside.ovc = some 5) := by decide

theorem witness_TickAndHandlerLeaveImAndHostAlone :
    (∃ s t : State, step s = .next t ∧ s.nextPick = .tick ∧ t.tc ≠ s.tc) ∧
    (∃ s t : State, step s = .next t ∧ s.nextPick = .handler ∧ t.tc ≠ s.tc) :=
  ⟨⟨picked .tick (tcAt true true 255 false), _, rfl, rfl, by decide⟩,
   ⟨picked .handler (notified (some 5)), _, rfl, rfl, by decide⟩⟩

theorem witness_ReadsChangeNothingOfTheBlock :
    (∃ t, exec .rdImDiv quiet = .next t) ∧ (∃ t, exec .rdImData (pending .start 0 .none false .idle) = .next t) ∧
    (∃ t, exec .rdTcCnt quiet = .next t) ∧ (∃ t, exec .rdRsvd7 quiet = .next t) :=
  ⟨⟨_, rfl⟩, ⟨_, rfl⟩, ⟨_, rfl⟩, ⟨_, rfl⟩⟩

theorem witness_ImWritesTouchOnlyTheirRegister :
    (∃ t, exec (.wrImDiv 255) quiet = .next t) ∧ (∃ t, exec (.wrImData 1) quiet = .next t) ∧
    (∃ t, exec .cmdStart quiet = .next t) ∧ (∃ t, exec .cmdSendAddr quiet = .next t) ∧
    quiet.im.busy = false ∧ (∀ d, Instr.wrImDiv 255 ≠ .wrImData d) ∧
    Instr.wrImDiv 255 ∉ [Instr.cmdStart, .cmdStop, .cmdSendAddr, .cmdSendData, .cmdRecvAck, .cmdRecvNack] :=
  ⟨⟨_, rfl⟩, ⟨_, rfl⟩, ⟨_, rfl⟩, ⟨_, rfl⟩, rfl, nofun, by decide⟩

theorem witness_TcWritesTouchOnlyTheirRegister :
    (∃ t, exec (.wrTcCtrl 3) quiet = .next t) ∧ (∃ t, exec (.wrTcCnt 9) quiet = .next t) ∧
    (∃ t, exec (.wrTcFlag 1) (tcAt true true 0 true) = .next t) :=
  ⟨⟨_, rfl⟩, ⟨_, rfl⟩, ⟨_, rfl⟩⟩

theorem witness_StepKeepsLocalsCanonical :
    ∃ s t : State, localsWf s.host.locals = true ∧ step s = .next t ∧ t.host.locals = [(1, 7), (3, 0)] :=
  ⟨hostAt (.assign 1 (.lit 7)) (quiet.setLocal 3 0), _, rfl, rfl, rfl⟩

theorem witness_AssignmentChangesOneLocal : (1 : Local) ≠ 0 ∧ (0 : Local) ≠ 1 := by decide

theorem witness_DividerIsTheSmallestThatMeetsTheTarget :
    (0 < 1 ∧ 0 < 526 ∧ 526 ≤ 1 * 526 ∧ divider 1 526 = 255 ∧ 254 < divider 1 526) ∧
    (1 * 526 < 527 ∧ divider 1 527 = 255) ∧ (17 ≤ 1 * 526 ∧ divider 1 17 = 1 ∧ 0 < divider 1 17) ∧
    divider 1 16 = 0 := by decide

theorem witness_CombineIsTicksModuloTwoToThe64 :
    (0x100000000000005#64).toNat % 2 ^ 56 = (0x5#64).toNat % 2 ^ 56 ∧ (0x100000000000005#64) ≠ 0x5#64 := by decide

/-- The locals of `now_us` after its reads. -/
def afterReads : State := ((quiet.setLocal mVar 5).setLocal tVar 3).setLocal fVar 1

theorem witness_NowUsExpressionsAreTheCombine :
    afterReads.localVal mVar = (5 : Word64).toNat ∧ afterReads.localVal tVar = (3 : Byte).toNat ∧
    afterReads.localVal fVar = (1 : Byte).toNat := by decide

/-- The counter read just before a wrap that falls before the flag read (N-X4), and read just after a wrap
that is pending (N-X2); `ticks` is 1535 and 1536. -/
theorem witness_CombineIsExactAcrossATick :
    (let s := tcAt true true 255 false
     s.tc.cnt = BitVec.ofNat 8 1535 ∧ s.hostside.ovc = some 5 ∧
       (5 : Word64) + BitVec.ofNat 64 s.tc.ovf.toNat = BitVec.ofNat 64 (1535 / 256) ∧
       (s.tc.ovf = true → s.tc.cnt ≠ 255)) ∧
    (∃ t, tickStep (tcAt true true 255 false) = .next t ∧ t.tc.ovf = true) ∧
    (let s := tcAt true true 0 true
     s.tc.cnt = BitVec.ofNat 8 1536 ∧ s.hostside.ovc = some 5 ∧
       (5 : Word64) + BitVec.ofNat 64 s.tc.ovf.toNat = BitVec.ofNat 64 (1536 / 256) ∧
       (s.tc.ovf = true → s.tc.cnt ≠ 255)) :=
  ⟨by decide, ⟨_, rfl, rfl⟩, by decide⟩

end Sys2Proof.Tests
end

section
/-! The ENGINE's step commutes with replacing TC (00_scope R1, 40_i2c_commands R120): each operation it is
made of reads and writes IM, TRACE and the inputs alone. -/

namespace Sys2Proof.Machine

variable (s : State) (tc : Tc)

/-! ### The bus's draws do not see the counter -/

@[simp] theorem State.startAnswer_setTc : (s.setTc tc).startAnswer = s.startAnswer := rfl
@[simp] theorem State.addrAnswer_setTc (a7 : TargetAddr) (dir : Bool) :
    (s.setTc tc).addrAnswer a7 dir = s.addrAnswer a7 dir := rfl
@[simp] theorem State.txAnswer_setTc (b : Byte) : (s.setTc tc).txAnswer b = s.txAnswer b := rfl
@[simp] theorem State.rxAnswer_setTc : (s.setTc tc).rxAnswer = s.rxAnswer := rfl
@[simp] theorem State.freeByte_setTc : (s.setTc tc).freeByte = s.freeByte := rfl

/-! ### The ENGINE's updates of the state commute with replacing TC -/

@[simp] theorem State.setIm_setTc (im : Im) : (s.setTc tc).setIm im = (s.setIm im).setTc tc := rfl
@[simp] theorem State.addEvent_setTc (e : BusEvent) :
    (s.setTc tc).addEvent e = (s.addEvent e).setTc tc := rfl
@[simp] theorem State.drawn_setTc : (s.setTc tc).drawn = s.drawn.setTc tc := rfl

@[simp] theorem State.startTaken_setTc : (s.setTc tc).startTaken = s.startTaken.setTc tc := by
  simp only [State.startTaken, State.setTc_inputs]
  split <;> rfl

@[simp] theorem State.addrTaken_setTc : (s.setTc tc).addrTaken = s.addrTaken.setTc tc := by
  simp only [State.addrTaken, State.setTc_inputs]
  split <;> rfl

@[simp] theorem State.txTaken_setTc : (s.setTc tc).txTaken = s.txTaken.setTc tc := by
  simp only [State.txTaken, State.setTc_inputs]
  split <;> rfl

@[simp] theorem State.rxTaken_setTc : (s.setTc tc).rxTaken = s.rxTaken.setTc tc := by
  simp only [State.rxTaken, State.setTc_inputs]
  split <;> rfl

/-! ### So do the complete parts of the commands (R108-R113) -/

@[simp] theorem completeStart_setTc : completeStart (s.setTc tc) = (completeStart s).setTc tc := by
  cases hheld : s.im.held <;> simp [completeStart, hheld]

@[simp] theorem completeStop_setTc : completeStop (s.setTc tc) = (completeStop s).setTc tc := by
  cases hheld : s.im.held <;> simp [completeStop, hheld]

@[simp] theorem completeSendAddr_setTc (b : Byte) :
    completeSendAddr b (s.setTc tc) = (completeSendAddr b s).setTc tc := by
  simp [completeSendAddr]

@[simp] theorem completeSendData_setTc (b : Byte) :
    completeSendData b (s.setTc tc) = (completeSendData b s).setTc tc := by
  simp [completeSendData]

@[simp] theorem receiveByte_setTc (v : Byte) (sent : AckAns) (result : Code × Ctx) :
    receiveByte v sent result (s.setTc tc) = (receiveByte v sent result s).setTc tc := by
  simp [receiveByte]

@[simp] theorem receiveError_setTc : receiveError (s.setTc tc) = (receiveError s).setTc tc := by
  simp [receiveError]

@[simp] theorem completeRecvAck_setTc :
    completeRecvAck (s.setTc tc) = (completeRecvAck s).setTc tc := by
  cases hrx : s.rxAnswer <;> simp [completeRecvAck, hrx]

@[simp] theorem completeRecvNack_setTc :
    completeRecvNack (s.setTc tc) = (completeRecvNack s).setTc tc := by
  cases hrx : s.rxAnswer <;> simp [completeRecvNack, hrx]

@[simp] theorem completeCommand_setTc (c : Cmd) (b : Byte) :
    completeCommand c b (s.setTc tc) = (completeCommand c b s).setTc tc := by
  cases c <;> simp [completeCommand]

/-! ### The ENGINE's step, case by case (R120) -/

variable {s}

theorem engineStep_of_not_busy (hbusy : s.im.busy = false) : engineStep s = .next s := by
  simp [engineStep, hbusy]

theorem engineStep_of_pend {c : Cmd} {b : Byte} (hbusy : s.im.busy = true)
    (hpend : s.im.pend = some (c, b)) : engineStep s = .next (completeCommand c b s) := by
  simp [engineStep, hbusy, hpend]

theorem engineStep_of_no_pend (hbusy : s.im.busy = true) (hpend : s.im.pend = none) :
    engineStep s = .next (s.setIm s.im.finish) := by
  simp [engineStep, hbusy, hpend]

/-- Whether the step is enabled and what it completes is read off IM, so both states take the same case. -/
theorem engineStep_setTc {t : State} (h : engineStep s = .next t) :
    engineStep (s.setTc tc) = .next (t.setTc tc) := by
  obtain ⟨hbusy, hs⟩ | ⟨c, b, hbusy, hpend, hs⟩ | ⟨hbusy, hpend, hs⟩ := engineStep_cases s
  · obtain rfl : s = t := by simpa [hs] using h
    exact engineStep_of_not_busy hbusy
  · obtain rfl : completeCommand c b s = t := by simpa [hs] using h
    rw [← completeCommand_setTc]
    exact engineStep_of_pend hbusy hpend
  · obtain rfl : s.setIm s.im.finish = t := by simpa [hs] using h
    exact engineStep_of_no_pend hbusy hpend

end Sys2Proof.Machine

namespace Sys2Proof

/-- Settles O41: every operation of the ENGINE's step commutes with replacing TC. -/
theorem engineDoesNotSeeTheCounter : Obligations.EngineDoesNotSeeTheCounter :=
  fun _ _ tc h => Machine.engineStep_setTc tc h

end Sys2Proof
end

section
/-! What one step can do to IM, said once (10_state R43): the picked agent fixes it. HOST's accesses write
DIV, write DATA, or take a command (40_i2c_commands R102, R104, R106, R114); the ENGINE completes the pending
command (R108-R113, R120); the other agents leave IM alone. -/

namespace Sys2Proof.Machine

@[simp] theorem afterAccess_im (dst : Option Local) (s : State) : (afterAccess dst s).im = s.im := by
  obtain h | ⟨p, l, h, -⟩ := afterAccess_eq dst s
  · rw [h]
  · rw [h, State.setHost_im]

@[simp] theorem returnWith_im (r : Result) (s : State) : (returnWith r s).im = s.im := rfl
@[simp] theorem loadProgram_im (p : List Line) (rest : List (List Line)) (s : State) :
    (loadProgram p rest s).im = s.im := rfl

/-! ### HOST -/

/-- What a HOST step can do to IM. -/
inductive HostImEffect (im : Im) : Im → Prop where
  | keeps : HostImEffect im im
  | writesDiv (d : Byte) : HostImEffect im { im with div := d }
  | writesData (d : Byte) : im.busy = false → HostImEffect im { im with data := d }
  | accepts (c : Cmd) : im.busy = false → legal im.ctx c = true → HostImEffect im (im.accept c)
  | fails (c : Cmd) : im.busy = false → legal im.ctx c = false → HostImEffect im im.illegalComplete

theorem AccessEffect.hostImEffect {s t : State} (h : AccessEffect s t) : HostImEffect s.im t.im := by
  cases h with
  | nothing | returns | returnsFree | busyWrite | writesCtrl | clearsOvf => exact .keeps
  | writesDiv d => exact .writesDiv d
  | writesData d hidle => exact .writesData d hidle
  | accepts c hidle hlegal => exact .accepts c hidle hlegal
  | fails c hidle hlegal => exact .fails c hidle hlegal

theorem HostEffect.hostImEffect {s t : State} {st : Stmt} (h : HostEffect s st t) :
    HostImEffect s.im t.im := by
  cases h with
  | control | assigns | entersCs | setsHie | storesOvc | returns | raises => exact .keeps
  | accesses _ dst u hu => simpa using hu.hostImEffect

theorem hostStep_hostImEffect {s t : State} (h : hostStep s = .next t) : HostImEffect s.im t.im := by
  obtain ⟨line, -, heffect⟩ | ⟨p, rest, -, -, rfl⟩ | rfl := hostStep_cases h
  · exact heffect.hostImEffect
  · exact .keeps
  · exact .keeps

/-! ### ENGINE -/

/-- HELD after the completion of a command (R108, R109). -/
def heldAfter : Cmd → Bool → Bool
  | .start, _ => true
  | .stop, _ => false
  | .sendAddr, held | .sendData, held | .recvAck, held | .recvNack, held => held

/-- CODE and CTX that the completion of a command can leave (R108-R113). -/
inductive PhaseResult (im : Im) : Cmd → Code × Ctx → Prop where
  | start (ans : StartAns) : PhaseResult im .start (startResult im.held ans)
  | stop : PhaseResult im .stop (.idle, .none)
  | sendAddr (dir : Bool) (ans : AckAns) : PhaseResult im .sendAddr (addrResult dir ans)
  | sendData (ans : AckAns) : PhaseResult im .sendData (txResult im.ctx ans)
  | recvAck : PhaseResult im .recvAck (recvAckResult im.ctx)
  | recvAckError : PhaseResult im .recvAck phaseFailure
  | recvNack : PhaseResult im .recvNack recvNackResult
  | recvNackError : PhaseResult im .recvNack phaseFailure

/-- What an ENGINE step can do to IM. -/
inductive EngineImEffect (im : Im) : Im → Prop where
  | idle : im.busy = false → EngineImEffect im im
  | completes (c : Cmd) (latched data : Byte) (r : Code × Ctx) :
      im.busy = true → im.pend = some (c, latched) → PhaseResult im c r →
      EngineImEffect im ({ im with held := heldAfter c im.held, data := data }.complete r)
  | finishes : im.busy = true → im.pend = none → EngineImEffect im im.finish

@[simp] theorem receiveByte_im (v : Byte) (sent : AckAns) (r : Code × Ctx) (s : State) :
    (receiveByte v sent r s).im = { s.im with data := v }.complete r := rfl
@[simp] theorem receiveError_im (s : State) :
    (receiveError s).im = { s.im with data := s.rxTaken.freeByte }.complete phaseFailure := rfl

theorem completeCommand_im (c : Cmd) (b : Byte) (s : State) :
    ∃ data r, PhaseResult s.im c r ∧
      (completeCommand c b s).im = { s.im with held := heldAfter c s.im.held, data := data }.complete r := by
  cases c with
  | start => exact ⟨s.im.data, _, .start s.startAnswer, rfl⟩
  | stop => exact ⟨s.im.data, _, .stop, rfl⟩
  | sendAddr => exact ⟨s.im.data, _, .sendAddr (dirOf b) (s.addrAnswer (addrOf b) (dirOf b)), rfl⟩
  | sendData => exact ⟨s.im.data, _, .sendData (s.txAnswer b), rfl⟩
  | recvAck =>
    cases hrx : s.rxAnswer with
    | some v => exact ⟨v, _, .recvAck, by simp [completeCommand, completeRecvAck, heldAfter, hrx]⟩
    | none => exact ⟨s.rxTaken.freeByte, _, .recvAckError, by
        simp [completeCommand, completeRecvAck, heldAfter, hrx]⟩
  | recvNack =>
    cases hrx : s.rxAnswer with
    | some v => exact ⟨v, _, .recvNack, by simp [completeCommand, completeRecvNack, heldAfter, hrx]⟩
    | none => exact ⟨s.rxTaken.freeByte, _, .recvNackError, by
        simp [completeCommand, completeRecvNack, heldAfter, hrx]⟩

theorem engineStep_engineImEffect {s t : State} (h : engineStep s = .next t) : EngineImEffect s.im t.im := by
  obtain ⟨hidle, hs⟩ | ⟨c, b, hbusy, hpend, hs⟩ | ⟨hbusy, hpend, hs⟩ := engineStep_cases s
  · cases hs.symm.trans h
    exact .idle hidle
  · cases hs.symm.trans h
    obtain ⟨data, r, hr, him⟩ := completeCommand_im c b s
    rw [him]
    exact .completes c b data r hbusy hpend hr
  · cases hs.symm.trans h
    exact .finishes hbusy hpend

/-! ### Every agent, and the reset input -/

/-- A TICK step writes TC alone. -/
theorem tickStep_eq {s t : State} (h : tickStep s = .next t) : ∃ tc, t = s.setTc tc := by
  obtain ⟨-, hs⟩ | ⟨-, hs⟩ := tickStep_cases s
  · cases hs.symm.trans h
    exact ⟨_, rfl⟩
  · cases hs.symm.trans h
    exact ⟨s.tc, rfl⟩

@[simp] theorem State.takeNotification_im (s : State) : s.takeNotification.im = s.im := by
  obtain ⟨n, -, h⟩ | ⟨-, h⟩ := s.takeNotification_cases <;> simp [h]

theorem handlerStep_im {s t : State} (h : handlerStep s = .next t) : t.im = s.im := by
  obtain ⟨-, hs⟩ | ⟨-, hs⟩ := handlerStep_cases s
  · cases hs.symm.trans h
    exact s.takeNotification_im
  · cases hs.symm.trans h
    rfl

/-- What a step can do to IM, by the agent that moves. -/
inductive ImStep (im : Im) : Pick → Im → Prop where
  | host {im' : Im} : HostImEffect im im' → ImStep im .host im'
  | handler : ImStep im .handler im
  | tick : ImStep im .tick im
  | engine {im' : Im} : EngineImEffect im im' → ImStep im .engine im'
  | reset : ImStep im .reset Im.reset

theorem agentStep_imStep {p : Pick} {s t : State} (h : agentStep p s = .next t) : ImStep s.im p t.im := by
  cases p with
  | host => exact .host (hostStep_hostImEffect h)
  | handler => rw [handlerStep_im h]; exact .handler
  | tick => obtain ⟨tc, rfl⟩ := tickStep_eq h; exact .tick
  | engine => exact .engine (engineStep_engineImEffect h)
  | reset => cases h; exact .reset

theorem step_imStep {s t : State} (h : step s = .next t) : ImStep s.im s.nextPick t.im := by
  simpa using agentStep_imStep (step_next h).2

end Sys2Proof.Machine
end

section
/-! The invariants of IM (10_state R43): they hold at reset, and every effect on IM keeps them. -/

namespace Sys2Proof.Machine

theorem Im.reset_inv : Im.reset.Inv where
  busy_iff_pend := by decide
  busy_not_done := fun _ => rfl
  released_ctx := fun _ => .inl rfl
  idle_released := fun _ => rfl
  pend_legal := rfl

variable {im im' : Im} {p : Pick}

theorem Im.Inv.pend_of_not_busy (h : im.Inv) (hidle : im.busy = false) : im.pend = none := by
  by_contra hpend
  simp [h.busy_iff_pend.2 hpend] at hidle

theorem Im.Inv.legal_of_pend {c : Cmd} {b : Byte} (h : im.Inv) (hpend : im.pend = some (c, b)) :
    legal im.ctx c = true := by
  simpa [Im.pendLegal, hpend] using h.pend_legal

/-- A released bus leaves the context NONE or FAILED, where only START and STOP are legal. -/
theorem Im.Inv.start_or_stop_of_released {c : Cmd} (h : im.Inv) (hrel : im.held = false)
    (hlegal : legal im.ctx c = true) : c = .start ∨ c = .stop := by
  obtain hctx | hctx := h.released_ctx hrel <;> rw [hctx] at hlegal <;> revert hlegal <;> cases c <;> decide

theorem Im.Inv.accept {c : Cmd} (h : im.Inv) (hlegal : legal im.ctx c = true) : (im.accept c).Inv where
  busy_iff_pend := by simp
  busy_not_done := fun _ => rfl
  released_ctx := h.released_ctx
  idle_released := h.idle_released
  pend_legal := hlegal

theorem Im.Inv.illegalComplete (h : im.Inv) (hidle : im.busy = false) : im.illegalComplete.Inv where
  busy_iff_pend := h.busy_iff_pend
  busy_not_done := by simp [hidle]
  released_ctx := fun _ => .inr rfl
  idle_released := nofun
  pend_legal := by simp [Im.pendLegal, h.pend_of_not_busy hidle]

theorem HostImEffect.inv (heffect : HostImEffect im im') (h : im.Inv) : im'.Inv := by
  cases heffect with
  | keeps => exact h
  | writesDiv | writesData => exact { h with }
  | accepts c _ hlegal => exact h.accept hlegal
  | fails c hidle _ => exact h.illegalComplete hidle

/-! ### Completions -/

/-- A completion meets the invariants as soon as its results fit HELD. -/
theorem Im.complete_inv {r : Code × Ctx} (hctx : im.held = false → r.2 = .none ∨ r.2 = .failed)
    (hcode : r.1 = .idle → im.held = false) : (im.complete r).Inv where
  busy_iff_pend := by simp
  busy_not_done := nofun
  released_ctx := hctx
  idle_released := hcode
  pend_legal := rfl

/-- Only a STOP leaves the status code IDLE. -/
theorem PhaseResult.stop_of_idle {c : Cmd} {r : Code × Ctx} (h : PhaseResult im c r) (hcode : r.1 = .idle) :
    c = .stop := by
  cases h with
  | stop => rfl
  | start ans => cases ans <;> cases hheld : im.held <;> simp [startResult, phaseFailure, hheld] at hcode
  | sendAddr dir ans => cases ans <;> cases dir <;> simp [addrResult, phaseFailure] at hcode
  | sendData ans => cases ans <;> simp [txResult, phaseFailure] at hcode
  | recvAck | recvAckError | recvNack | recvNackError => nomatch hcode

theorem PhaseResult.eq_of_stop {r : Code × Ctx} (h : PhaseResult im .stop r) : r = (.idle, .none) := by
  cases h; rfl

/-- From a state that meets the invariants, a completion releases the bus only if it is a STOP's: the other
commands but START are legal only where the bus is held. -/
theorem Im.Inv.stop_of_heldAfter {c : Cmd} {b : Byte} (h : im.Inv) (hpend : im.pend = some (c, b))
    (hrel : heldAfter c im.held = false) : c = .stop := by
  cases c with
  | start => nomatch hrel
  | stop => rfl
  | sendAddr | sendData | recvAck | recvNack =>
    simpa using h.start_or_stop_of_released hrel (h.legal_of_pend hpend)

theorem EngineImEffect.inv (heffect : EngineImEffect im im') (h : im.Inv) : im'.Inv := by
  cases heffect with
  | idle => exact h
  | completes c b data r _ hpend hr =>
    refine Im.complete_inv (fun hrel => ?_) (fun hcode => ?_)
    · obtain rfl : c = .stop := h.stop_of_heldAfter hpend hrel
      simp [hr.eq_of_stop]
    · obtain rfl : c = .stop := hr.stop_of_idle hcode
      rfl
  | finishes hbusy hpend => exact absurd hpend (h.busy_iff_pend.1 hbusy)

theorem ImStep.inv (hstep : ImStep im p im') (h : im.Inv) : im'.Inv := by
  cases hstep with
  | host heffect => exact heffect.inv h
  | handler | tick => exact h
  | engine heffect => exact heffect.inv h
  | reset => exact Im.reset_inv

/-! ### Where FAILED on a released bus comes from (R43, R114) -/

theorem EngineImEffect.failed_released (heffect : EngineImEffect im im') (h : im.Inv)
    (hctx : im'.ctx = .failed) (hrel : im'.held = false) : im.ctx = .failed ∧ im.held = false := by
  cases heffect with
  | idle | finishes => exact ⟨hctx, hrel⟩
  | completes c b data r _ hpend hr =>
    obtain rfl : c = .stop := h.stop_of_heldAfter hpend hrel
    simp [hr.eq_of_stop] at hctx

theorem HostImEffect.failed_released (heffect : HostImEffect im im') (hctx : im'.ctx = .failed)
    (hrel : im'.held = false) : (im.ctx = .failed ∧ im.held = false) ∨ im' = im.illegalComplete := by
  cases heffect with
  | keeps | writesDiv | writesData | accepts => exact .inl ⟨hctx, hrel⟩
  | fails => exact .inr rfl

theorem ImStep.failed_released (hstep : ImStep im p im') (h : im.Inv) (hctx : im'.ctx = .failed)
    (hrel : im'.held = false) :
    (im.ctx = .failed ∧ im.held = false) ∨ (p = .host ∧ im' = im.illegalComplete) := by
  cases hstep with
  | host heffect => exact (heffect.failed_released hctx hrel).imp_right fun hillegal => ⟨rfl, hillegal⟩
  | handler | tick => exact .inl ⟨hctx, hrel⟩
  | engine heffect => exact .inl (heffect.failed_released h hctx hrel)
  | reset => nomatch hctx

end Sys2Proof.Machine

namespace Sys2Proof

/-- Settles O37: the effect of a step on IM keeps the invariants, whichever agent moves. -/
theorem stepKeepsTheInvariantsOfIm : Obligations.StepKeepsTheInvariantsOfIm :=
  fun _ _ hinv hstep =>
    ⟨(Machine.step_imStep hstep).inv hinv, (Machine.step_imStep hstep).failed_released hinv⟩

/-- Settles O2: reset has nothing pending, a released bus, and no locals. -/
theorem resetMeetsTheInvariants : Obligations.ResetMeetsTheInvariants :=
  ⟨Machine.Im.reset_inv, rfl, rfl⟩

end Sys2Proof
end

section
/-! HELD (10_state R27), and IM while a command is pending (R26, R28, R31, 40_i2c_commands R122): both read
off the effect of a step on IM. -/

namespace Sys2Proof.Machine

variable {im im' : Im} {p : Pick}

theorem HostImEffect.held (h : HostImEffect im im') : im'.held = im.held := by
  cases h <;> rfl

/-- An ENGINE step with a command pending leaves HELD as its completion does. -/
theorem ImStep.held_of_pend {c : Cmd} {b : Byte} (h : ImStep im .engine im') (hbusy : im.busy = true)
    (hpend : im.pend = some (c, b)) : im'.held = heldAfter c im.held := by
  cases h with
  | engine heffect =>
    cases heffect with
    | idle hidle => simp [hidle] at hbusy
    | completes c' b' data r _ hpend' =>
      obtain rfl : c' = c := congrArg Prod.fst (Option.some.inj (hpend'.symm.trans hpend))
      rfl
    | finishes _ hnone => simp [hnone] at hpend

/-- A step that changes HELD is the reset, or the completion of a command that changes it. -/
theorem ImStep.pend_of_held_ne (h : ImStep im p im') (hne : im'.held ≠ im.held) :
    (p = .reset ∧ im'.held = false) ∨
    (p = .engine ∧ im.busy = true ∧ ∃ c b, im.pend = some (c, b) ∧ im'.held = heldAfter c im.held) := by
  cases h with
  | host heffect => exact absurd heffect.held hne
  | handler | tick => exact absurd rfl hne
  | reset => exact .inl ⟨rfl, rfl⟩
  | engine heffect =>
    cases heffect with
    | idle | finishes => exact absurd rfl hne
    | completes c b data r hbusy hpend => exact .inr ⟨rfl, hbusy, c, b, hpend, rfl⟩

theorem start_of_heldAfter {c : Cmd} (h : heldAfter c false = true) : c = .start := by
  cases c with
  | start => rfl
  | stop | sendAddr | sendData | recvAck | recvNack => nomatch h

theorem stop_of_heldAfter {c : Cmd} (h : heldAfter c true = false) : c = .stop := by
  cases c with
  | stop => rfl
  | start | sendAddr | sendData | recvAck | recvNack => nomatch h

/-- While `BUSY = 1`, a HOST step changes at most the divider. -/
theorem HostImEffect.eq_of_busy (h : HostImEffect im im') (hbusy : im.busy = true) :
    im' = { im with div := im'.div } := by
  cases h with
  | keeps | writesDiv => rfl
  | writesData _ hidle | accepts _ hidle | fails _ hidle => simp [hidle] at hbusy

theorem ImStep.eq_of_busy (h : ImStep im p im') (hbusy : im.busy = true) (hengine : p ≠ .engine)
    (hreset : p ≠ .reset) : im' = { im with div := im'.div } := by
  cases h with
  | host heffect => exact heffect.eq_of_busy hbusy
  | handler | tick => rfl
  | engine => exact absurd rfl hengine
  | reset => exact absurd rfl hreset

end Sys2Proof.Machine

namespace Sys2Proof

/-- Settles O39: HELD follows `heldAfter` at a completion, and changes at nothing else but a reset. -/
theorem heldIsSetByStartAndClearedByStop : Obligations.HeldIsSetByStartAndClearedByStop := by
  intro s t hstep
  have him := Machine.step_imStep hstep
  refine ⟨fun b hpick hbusy hpend => ?_, fun b hpick hbusy hpend => ?_, fun hs ht => ?_, fun hs ht => ?_⟩
  · rw [hpick] at him
    exact him.held_of_pend hbusy hpend
  · rw [hpick] at him
    exact him.held_of_pend hbusy hpend
  · obtain ⟨-, hrel⟩ | ⟨hpick, hbusy, c, b, hpend, hheld⟩ := him.pend_of_held_ne (by simp [hs, ht])
    · simp [ht] at hrel
    · rw [hs, ht] at hheld
      obtain rfl := Machine.start_of_heldAfter hheld.symm
      exact ⟨hpick, hbusy, b, hpend⟩
  · obtain ⟨hpick, -⟩ | ⟨hpick, hbusy, c, b, hpend, hheld⟩ := him.pend_of_held_ne (by simp [hs, ht])
    · exact .inl hpick
    · rw [hs, ht] at hheld
      obtain rfl := Machine.stop_of_heldAfter hheld.symm
      exact .inr ⟨hpick, hbusy, b, hpend⟩

/-- Settles O40: of HOST's effects on IM, only the write of DIV is enabled while `BUSY = 1`. -/
theorem pendingCommandWaitsForTheEngine : Obligations.PendingCommandWaitsForTheEngine :=
  fun _ _ hstep hbusy hengine hreset => (Machine.step_imStep hstep).eq_of_busy hbusy hengine hreset

end Sys2Proof
end

section
/-! What one step can do to the host-owned items of the clock, said once (10_state R40, R41): HIE is HOST's,
OVC is the HANDLER's and HOST's, and the reset sets both. -/

namespace Sys2Proof.Machine

@[simp] theorem afterAccess_hostside (dst : Option Local) (s : State) :
    (afterAccess dst s).hostside = s.hostside := by
  obtain h | ⟨p, l, h, -⟩ := afterAccess_eq dst s
  · rw [h]
  · rw [h, State.setHost_hostside]

theorem AccessEffect.hostside {s t : State} (h : AccessEffect s t) : t.hostside = s.hostside := by
  cases h <;> rfl

/-- What a HOST line can do to HOSTSIDE. -/
inductive LineHostSideEffect (x : HostSide) : Stmt → HostSide → Prop where
  | keeps (st : Stmt) : LineHostSideEffect x st x
  | csEnter (v : Local) : LineHostSideEffect x (.csEnter v) { x with hie := false }
  | csExit (v : Local) (b : Bool) : LineHostSideEffect x (.csExit v) { x with hie := b }
  | setHie (b : Bool) : LineHostSideEffect x (.setHie b) { x with hie := b }
  | storeOvc (e : Expr) (n : Word64) :
      x.hie = false → LineHostSideEffect x (.storeOvc e) { x with ovc := some n }

theorem HostEffect.lineHostSideEffect {s t : State} {st : Stmt} (h : HostEffect s st t) :
    LineHostSideEffect s.hostside st t.hostside := by
  cases h with
  | control | assigns | returns | raises => exact .keeps _
  | accesses _ dst u hu => rw [afterAccess_hostside, hu.hostside]; exact .keeps _
  | entersCs v => exact .csEnter v
  | setsHie _ b hst =>
    obtain ⟨v, rfl⟩ | rfl := hst
    · exact .csExit v b
    · exact .setHie b
  | storesOvc e n hie => exact .storeOvc e n hie

/-- What a step can do to HOSTSIDE, by the agent that moves and the line that HOST runs. -/
inductive HostSideStep (s : State) : Pick → HostSide → Prop where
  | keeps (p : Pick) : HostSideStep s p s.hostside
  | host (label : Option Label) (st : Stmt) {x : HostSide} : currentLine s = some ⟨label, st⟩ →
      LineHostSideEffect s.hostside st x → HostSideStep s .host x
  | handler (n : Word64) : s.hostside.ovc = some n →
      HostSideStep s .handler { s.hostside with ovc := some (n + 1) }
  | reset : HostSideStep s .reset HostSide.reset

theorem hostStep_hostSideStep {s t : State} (h : hostStep s = .next t) :
    HostSideStep s .host t.hostside := by
  obtain ⟨⟨label, st⟩, hline, heffect⟩ | ⟨p, rest, -, -, rfl⟩ | rfl := hostStep_cases h
  · exact .host label st hline heffect.lineHostSideEffect
  · exact .keeps .host
  · exact .keeps .host

theorem handlerStep_hostSideStep {s t : State} (h : handlerStep s = .next t) :
    HostSideStep s .handler t.hostside := by
  obtain ⟨-, hs⟩ | ⟨-, hs⟩ := handlerStep_cases s
  · cases hs.symm.trans h
    obtain ⟨n, hovc, ht⟩ | ⟨-, ht⟩ := s.takeNotification_cases <;> rw [ht]
    · exact .handler n hovc
    · exact .keeps .handler
  · cases hs.symm.trans h
    exact .keeps .handler

@[simp] theorem receiveByte_hostside (v : Byte) (sent : AckAns) (r : Code × Ctx) (s : State) :
    (receiveByte v sent r s).hostside = s.hostside := by
  simp [receiveByte]
@[simp] theorem receiveError_hostside (s : State) : (receiveError s).hostside = s.hostside := by
  simp [receiveError]

theorem completeCommand_hostside (c : Cmd) (b : Byte) (s : State) :
    (completeCommand c b s).hostside = s.hostside := by
  cases c with
  | start => simp [completeCommand, completeStart]
  | stop => cases hheld : s.im.held <;> simp [completeCommand, completeStop, hheld]
  | sendAddr => simp [completeCommand, completeSendAddr]
  | sendData => simp [completeCommand, completeSendData]
  | recvAck => cases hrx : s.rxAnswer <;> simp [completeCommand, completeRecvAck, hrx]
  | recvNack => cases hrx : s.rxAnswer <;> simp [completeCommand, completeRecvNack, hrx]

theorem engineStep_hostside {s t : State} (h : engineStep s = .next t) : t.hostside = s.hostside := by
  obtain ⟨-, hs⟩ | ⟨c, b, -, -, hs⟩ | ⟨-, -, hs⟩ := engineStep_cases s
  · cases hs.symm.trans h
    rfl
  · cases hs.symm.trans h
    exact completeCommand_hostside c b s
  · cases hs.symm.trans h
    rfl

theorem agentStep_hostSideStep {p : Pick} {s t : State} (h : agentStep p s = .next t) :
    HostSideStep s p t.hostside := by
  cases p with
  | host => exact hostStep_hostSideStep h
  | handler => exact handlerStep_hostSideStep h
  | tick => obtain ⟨tc, rfl⟩ := tickStep_eq h; exact .keeps .tick
  | engine => rw [engineStep_hostside h]; exact .keeps .engine
  | reset => cases h; exact .reset

theorem step_hostSideStep {s t : State} (h : step s = .next t) :
    HostSideStep s.pickTaken s.nextPick t.hostside :=
  agentStep_hostSideStep (step_next h).2

variable {s : State} {p : Pick} {x : HostSide}

theorem HostSideStep.of_ovc_ne (h : HostSideStep s p x) (hne : x.ovc ≠ s.hostside.ovc) :
    p = .handler ∨ p = .reset ∨ (p = .host ∧ ∃ label e, currentLine s = some ⟨label, .storeOvc e⟩) := by
  cases h with
  | keeps => exact absurd rfl hne
  | handler => exact .inl rfl
  | reset => exact .inr (.inl rfl)
  | host label st hline heffect =>
    cases heffect with
    | keeps | csEnter | csExit | setHie => exact absurd rfl hne
    | storeOvc e => exact .inr (.inr ⟨rfl, label, e, hline⟩)

theorem HostSideStep.of_hie_ne (h : HostSideStep s p x) (hne : x.hie ≠ s.hostside.hie) :
    p = .reset ∨
    (p = .host ∧ ∃ label, (∃ v, currentLine s = some ⟨label, .csEnter v⟩) ∨
      (∃ v, currentLine s = some ⟨label, .csExit v⟩) ∨ (∃ b, currentLine s = some ⟨label, .setHie b⟩)) := by
  cases h with
  | keeps | handler => exact absurd rfl hne
  | reset => exact .inl rfl
  | host label st hline heffect =>
    cases heffect with
    | keeps | storeOvc => exact absurd rfl hne
    | csEnter v => exact .inr ⟨rfl, label, .inl ⟨v, hline⟩⟩
    | csExit v => exact .inr ⟨rfl, label, .inr (.inl ⟨v, hline⟩)⟩
    | setHie b => exact .inr ⟨rfl, label, .inr (.inr ⟨b, hline⟩)⟩

end Sys2Proof.Machine

namespace Sys2Proof

/-- Settles O46: of all effects on HOSTSIDE, those three write OVC. -/
theorem ovcIsWrittenOnlyByHandlerAndStore : Obligations.OvcIsWrittenOnlyByHandlerAndStore := by
  intro s t hstep hne
  simpa using (Machine.step_hostSideStep hstep).of_ovc_ne (by simpa using hne)

/-- Settles O47: of all effects on HOSTSIDE, those of the reset and of the three lines write HIE. -/
theorem hieChangesOnlyByHostSteps : Obligations.HieChangesOnlyByHostSteps := by
  intro s t hstep hne
  simpa using (Machine.step_hostSideStep hstep).of_hie_ne (by simpa using hne)

end Sys2Proof
end

section
/-! The reset values (10_state R45), faults (R42), the bus's listed answers (R33) and the request (R39). -/

namespace Sys2Proof.Machine

theorem irqOvf_iff (tc : Tc) : irqOvf tc = true ↔ tc.ovf = true ∧ tc.ovie = true := by
  simp [irqOvf]

theorem handlerEnabled_iff (s : State) :
    handlerEnabled s = true ↔ s.tc.ovf = true ∧ s.tc.ovie = true ∧ s.hostside.hie = true := by
  simp [handlerEnabled, irqOvf_iff, and_assoc]

end Sys2Proof.Machine

namespace Sys2Proof

open Machine

/-- Settles O1: the reset state is a literal. -/
theorem resetGivesEveryElementItsValue : Obligations.ResetGivesEveryElementItsValue :=
  ⟨rfl, rfl, rfl, rfl, rfl, rfl, rfl, rfl⟩

/-- Settles O15: FAULT keeps its first reason, and a step with a reason recorded answers it. -/
theorem firstFaultIsKeptAndStopsTheRun : Obligations.FirstFaultIsKeptAndStopsTheRun :=
  ⟨fun _ r hnone => State.raise_fault_of_none hnone r, fun _ _ r hsome => State.raise_fault_of_some hsome r,
    fun _ _ hsome hpick => step_of_fault hsome hpick⟩

/-- Settles O34: with an answer listed, each draw takes the head and leaves the tail. -/
theorem listedBusAnswersAreTakenInOrder : Obligations.ListedBusAnswersAreTakenInOrder := by
  refine ⟨fun s a rest h => ?starts, fun s a rest a7 dir h => ?addrs, fun s a rest b h => ?txs,
    fun s a rest h => ?rxs⟩
  case starts => simp [State.startAnswer, State.startTaken, State.setInputs, h]
  case addrs => simp [State.addrAnswer, State.addrTaken, State.setInputs, h]
  case txs => simp [State.txAnswer, State.txTaken, State.setInputs, h]
  case rxs => simp [State.rxAnswer, State.rxTaken, State.setInputs, h]

/-- Settles O50: both are conjunctions of the bits named. -/
theorem notificationIsPendingEnabledAndUnmasked : Obligations.NotificationIsPendingEnabledAndUnmasked :=
  fun s => ⟨irqOvf_iff s.tc, handlerEnabled_iff s⟩

end Sys2Proof
end

section
/-! Host accesses of another width (20_memory R66), the reads (R67), and HOST's accesses to OVC (R70). -/

namespace Sys2Proof.Machine

theorem hostAccess_of_width_ne {width : Nat} (h : width ≠ 8) (w : AccessWord) (dst : Option Local)
    (s : State) : hostAccess width w dst s = .next (s.raise .width) :=
  if_neg h

/-! ### The reads by register -/

/-- What a register reads as; IM_DATA only while `BUSY = 0` (R103). -/
def readValue (im : Im) (tc : Tc) : Reg → Byte
  | .imDiv => im.div
  | .imData => im.data
  | .imCmd => 0
  | .imStat => statByte im
  | .tcCtrl => ctrlByte tc
  | .tcCnt => tc.cnt
  | .tcFlag => flagByte tc
  | .rsvd7 => 0

theorem exec_decodeRead {r : Reg} {s : State} (h : r = .imData → s.im.busy = false) :
    exec (decodeRead r) s = .next (s.ret (readValue s.im s.tc r)) := by
  cases r with
  | imData => simp [decodeRead, exec, execRdImData, readValue, h rfl]
  | imDiv | imCmd | imStat | tcCtrl | tcCnt | tcFlag | rsvd7 => rfl

theorem exec_rdImData_of_busy {s : State} (h : s.im.busy = true) :
    exec .rdImData s = .next (s.drawn.ret s.freeByte) :=
  if_pos h

/-- A read returns its register's value, or a free byte where it is IM_DATA while `BUSY = 1`. -/
theorem exec_decodeRead_cases (r : Reg) (s : State) :
    exec (decodeRead r) s = .next (s.ret (readValue s.im s.tc r)) ∨
    (r = .imData ∧ s.im.busy = true ∧ exec (decodeRead r) s = .next (s.drawn.ret s.freeByte)) := by
  by_cases h : r = .imData → s.im.busy = false
  · exact .inl (exec_decodeRead h)
  · obtain ⟨rfl, hbusy⟩ := Classical.not_imp.1 h
    have hbusy : s.im.busy = true := Bool.eq_true_of_not_eq_false hbusy
    exact .inr ⟨rfl, hbusy, exec_rdImData_of_busy hbusy⟩

/-- The eight read instructions are the reads of the eight registers. -/
theorem exists_decodeRead_of_mem {i : Instr} (h : i ∈ [Instr.rdImDiv, .rdImData, .rdImCmd, .rdImStat,
    .rdTcCtrl, .rdTcCnt, .rdTcFlag, .rdRsvd7]) : ∃ r, decodeRead r = i := by
  have hmap : i ∈ [Reg.imDiv, .imData, .imCmd, .imStat, .tcCtrl, .tcCnt, .tcFlag, .rsvd7].map decodeRead := h
  obtain ⟨r, -, hr⟩ := List.mem_map.1 hmap
  exact ⟨r, hr⟩

/-! ### OVC -/

@[simp] theorem State.localVal_advance (s : State) (v : Local) : s.advance.localVal v = s.localVal v :=
  State.localVal_congr v rfl rfl

variable {s : State}

theorem execStmt_loadOvc_of_hie (h : s.hostside.hie = true) (v : Local) :
    execStmt (.loadOvc v) s = .next (s.raise .ovcUnguarded) := by
  simp [execStmt, loadOvc, h]

theorem execStmt_loadOvc_of_unwritten (h : s.hostside.hie = false) (hovc : s.hostside.ovc = none)
    (v : Local) : execStmt (.loadOvc v) s = .next (s.raise .ovcUnwritten) := by
  simp [execStmt, loadOvc, h, hovc]

theorem execStmt_loadOvc_of_written {n : Word64} (h : s.hostside.hie = false)
    (hovc : s.hostside.ovc = some n) (v : Local) :
    execStmt (.loadOvc v) s = .next (s.setLocal v n.toNat).advance := by
  simp [execStmt, loadOvc, h, hovc]

theorem execStmt_storeOvc_of_hie (h : s.hostside.hie = true) (e : Expr) :
    execStmt (.storeOvc e) s = .next (s.raise .ovcUnguarded) := by
  simp [execStmt, storeOvc, h]

theorem execStmt_storeOvc_of_not_hie (h : s.hostside.hie = false) (e : Expr) :
    execStmt (.storeOvc e) s = .next (s.setHostSide
      { s.hostside with ovc := some (BitVec.ofNat 64 (eval s e)) }).advance := by
  simp [execStmt, storeOvc, h]

end Sys2Proof.Machine

namespace Sys2Proof

open Machine

/-- Settles O12: the width is looked at before the word. -/
theorem otherWidthsRaiseWidth : Obligations.OtherWidthsRaiseWidth :=
  fun _ w dst s hwidth => hostAccess_of_width_ne hwidth w dst s

/-- Settles O19: the value read is a function of IM and TC, which the read leaves as they are. -/
theorem readsAreIdempotent : Obligations.ReadsAreIdempotent := by
  intro i s t hread hidle hexec
  obtain ⟨r, rfl⟩ := exists_decodeRead_of_mem hread
  have hidle' : r = .imData → s.im.busy = false := fun hr => hidle (congrArg decodeRead hr)
  cases (exec_decodeRead hidle').symm.trans hexec
  exact ⟨rfl, exec_decodeRead (s := s.ret _) hidle'⟩

/-- Settles O52: a read writes RDATA, and at most draws a free value. -/
theorem readsChangeNothingOfTheBlock : Obligations.ReadsChangeNothingOfTheBlock := by
  intro i s t hread hexec
  obtain ⟨r, rfl⟩ := exists_decodeRead_of_mem hread
  obtain hr | ⟨-, -, hr⟩ := exec_decodeRead_cases r s <;> cases hr.symm.trans hexec
  · exact ⟨rfl, rfl, rfl, rfl, rfl, rfl, rfl⟩
  · exact ⟨rfl, rfl, rfl, rfl, rfl, rfl, rfl⟩

/-- Settles O49: HIE is looked at first, then, in a load, whether OVC has been written. -/
theorem ovcAccessIsGuarded : Obligations.OvcAccessIsGuarded := by
  refine ⟨fun s v e hie => ?unguarded, fun s v hie hovc => ?unwritten, fun s v n hie hovc => ?loads,
    fun s e hie => ?stores⟩
  case unguarded => exact ⟨execStmt_loadOvc_of_hie hie v, execStmt_storeOvc_of_hie hie e⟩
  case unwritten => exact execStmt_loadOvc_of_unwritten hie hovc v
  case loads => exact ⟨_, execStmt_loadOvc_of_written hie hovc v, by simp, rfl⟩
  case stores => exact ⟨_, _, execStmt_storeOvc_of_not_hie hie e, rfl, BitVec.toNat_ofNat _ 64⟩

end Sys2Proof
end

section
/-! Access words (30_encoding R80-R84, R89, R92): the fields of a word and the word of its fields, registers and
their offsets, and how the decoder and the encoder answer by register. -/

namespace Sys2Proof

open Machine (Reg)

/-! ### The fields of an access word -/

section

variable (we : Bool) (off : Offset) (d : Byte)

@[simp] theorem wordWe_accessWord : wordWe (accessWord we off d) = we := by
  simp only [wordWe, accessWord, BitVec.getLsbD_append]
  simp

@[simp] theorem wordOff_accessWord : wordOff (accessWord we off d) = off :=
  (BitVec.extractLsb'_append_eq_of_le (Nat.le_refl 8)).trans BitVec.extractLsb'_append_eq_right

@[simp] theorem wordData_accessWord : wordData (accessWord we off d) = d :=
  BitVec.extractLsb'_append_eq_right

end

theorem ofBool_wordWe (w : AccessWord) : BitVec.ofBool (wordWe w) = w.extractLsb' 11 1 := by
  apply BitVec.eq_of_getLsbD_eq
  simp [wordWe]

/-- A word is its fields put together: bits 11, 10:8 and 7:0 are all of its bits. -/
@[simp] theorem accessWord_fields (w : AccessWord) :
    accessWord (wordWe w) (wordOff w) (wordData w) = w := by
  unfold accessWord wordOff wordData
  rw [ofBool_wordWe, BitVec.extractLsb'_append_extractLsb'_eq_extractLsb' (by rfl),
    BitVec.extractLsb'_append_extractLsb'_eq_extractLsb' (by rfl)]
  exact BitVec.extractLsb'_eq_self

/-! ### Registers and offsets (20_memory R62) -/

@[simp] theorem regAt_regOffset (r : Reg) : regAt (regOffset r) = r := by
  cases r <;> rfl

@[simp] theorem regOffset_regAt (off : Offset) : regOffset (regAt off) = off := by
  revert off; decide

theorem regAt_eq_iff {off : Offset} {r : Reg} : regAt off = r ↔ off = regOffset r :=
  ⟨fun h => h ▸ (regOffset_regAt off).symm, fun h => h ▸ regAt_regOffset r⟩

/-! ### Commands (R84, R89) -/

theorem commandReserved_iff (d : Byte) :
    commandReserved d = true ↔ d.toNat / 8 ≠ 0 ∨ d.toNat % 8 = 7 := by
  have hhigh : (d.extractLsb' 3 5).toNat = d.toNat / 8 := by
    rw [BitVec.extractLsb'_toNat, Nat.shiftRight_eq_div_pow]
    omega
  have hlow : (d.extractLsb' 0 3).toNat = d.toNat % 8 := by
    rw [BitVec.extractLsb'_toNat, Nat.shiftRight_zero]
  simp [commandReserved, BitVec.toNat_eq, hhigh, hlow]

/-- The bytes that are not reserved are 0 to 6, one for each command. -/
theorem encode_commandOf {d : Byte} (h : commandReserved d = false) :
    encode (commandOf d) = accessWord true 2 d := by
  have hallowed : ¬(d.toNat / 8 ≠ 0 ∨ d.toNat % 8 = 7) :=
    (commandReserved_iff d).not.1 (Bool.eq_false_iff.1 h)
  obtain ⟨n, hn, rfl⟩ : ∃ n, n < 7 ∧ d = BitVec.ofNat 8 n := ⟨d.toNat, by omega, by simp⟩
  interval_cases n <;> rfl

/-! ### The decoder and the encoder by register (R81, R92) -/

theorem decode_of_write {w : AccessWord} (h : wordWe w = true) :
    decode w = decodeWrite (wordData w) (regAt (wordOff w)) :=
  if_pos h

theorem decode_of_read {w : AccessWord} (h : wordWe w = false) :
    decode w = .instr (decodeRead (regAt (wordOff w))) := by
  simp [decode, h]

theorem decode_accessWord (we : Bool) (off : Offset) (d : Byte) : decode (accessWord we off d) =
    if we then decodeWrite d (regAt off) else .instr (decodeRead (regAt off)) := by
  simp [decode]

theorem encode_decodeRead (r : Reg) : encode (decodeRead r) = accessWord false (regOffset r) 0 := by
  cases r <;> rfl

theorem encode_of_decodeWrite {d : Byte} {r : Reg} {i : Instr} (h : decodeWrite d r = .instr i) :
    encode i = accessWord true (regOffset r) d := by
  cases r with
  | imCmd =>
    simp only [decodeWrite] at h
    split at h
    · cases h
    · cases h
      exact encode_commandOf (Bool.eq_false_of_not_eq_true ‹_›)
  | imDiv | imData | imStat | tcCtrl | tcCnt | tcFlag | rsvd7 => cases h; rfl

/-- Of the writes, only those of reserved command bytes to IM_CMD are rejected. -/
theorem decodeWrite_rejected_iff {d : Byte} {r : Reg} :
    (∃ e, decodeWrite d r = .rejected e) ↔ r = .imCmd ∧ commandReserved d = true := by
  cases r with
  | imCmd => cases hres : commandReserved d <;> simp [decodeWrite, hres]
  | imDiv | imData | imStat | tcCtrl | tcCnt | tcFlag | rsvd7 => simp [decodeWrite]

/-- Settles O4: the decoder computes. -/
theorem wordsOfTheTableDecode : Obligations.WordsOfTheTableDecode :=
  ⟨rfl, rfl, rfl, rfl, rfl, rfl, rfl, rfl, rfl, rfl, rfl⟩

/-- Settles O8: the fields of the word are those it is made of. -/
theorem accessWordSelectsByWriteBitAndOffset : Obligations.AccessWordSelectsByWriteBitAndOffset :=
  decode_accessWord

/-- Settles O5: a write's operand comes back as WDATA; the words without an operand are closed. -/
theorem decodeOfEncodeIsTheInstruction : Obligations.DecodeOfEncodeIsTheInstruction := by
  intro i _
  cases i with
  | rdImDiv | rdImData | rdImCmd | rdImStat | rdTcCtrl | rdTcCnt | rdTcFlag | rdRsvd7 => rfl
  | cmdNop | cmdStart | cmdStop | cmdSendAddr | cmdSendData | cmdRecvAck | cmdRecvNack => rfl
  | wrImDiv | wrImData | wrImStat | wrTcCtrl | wrTcCnt | wrTcFlag | wrRsvd7 =>
    exact decode_accessWord true _ _

/-- Settles O6: the decoded instruction's register and operand are the word's OFF and WDATA. -/
theorem encodeOfDecodeIsTheWord : Obligations.EncodeOfDecodeIsTheWord := by
  intro w i h
  cases hwe : wordWe w with
  | true =>
    rw [decode_of_write hwe] at h
    calc encode i = accessWord true (wordOff w) (wordData w) := by simpa using encode_of_decodeWrite h
      _ = w := by rw [← hwe, accessWord_fields]
  | false =>
    rw [decode_of_read hwe] at h
    cases h
    simp [encode_decodeRead]

/-- Settles O7: every read decodes, and of the writes only a reserved command byte at IM_CMD's offset does not. -/
theorem decoderRejectsOnlyReservedCommands : Obligations.DecoderRejectsOnlyReservedCommands := by
  intro w
  cases hwe : wordWe w with
  | true => simp [decode_of_write hwe, decodeWrite_rejected_iff, regAt_eq_iff, commandReserved_iff, regOffset]
  | false => simp [decode_of_read hwe]

end Sys2Proof
end

section
/-! HOST's access lines and its assignment (30_encoding R80, R93, 42_host_procedures R170): the step of a line,
the access by what its word decodes to, and what a read line leaves. -/

namespace Sys2Proof.Machine

variable {s : State}

/-- With no fault recorded and HOST picked, the step is the current line's. -/
theorem step_of_line {label : Option Label} {st : Stmt} (hfault : s.fault = none)
    (hpick : s.nextPick = .host) (hline : currentLine s = some ⟨label, st⟩) :
    step s = execStmt st s.pickTaken := by
  simp [step_of_no_fault hfault, hpick, agentStep, hostStep, hline]

theorem hostAccess_of_rejected {w : AccessWord} {e : DecodeError} (h : decode w = .rejected e)
    (dst : Option Local) (s : State) : hostAccess 8 w dst s = .next (s.raise .reservedCmd) := by
  simp [hostAccess, h]

theorem hostAccess_of_instr {w : AccessWord} {i : Instr} {t : State} (h : decode w = .instr i)
    (hexec : exec i s = .next t) (dst : Option Local) :
    hostAccess 8 w dst s = .next (afterAccess dst t) := by
  simp [hostAccess, h, hexec]

theorem afterAccess_none (s : State) :
    afterAccess none s = if s.fault = none then s.advance else s := by
  cases h : s.fault <;> simp [afterAccess, h]

theorem afterAccess_some_of_no_fault (h : s.fault = none) (v : Local) :
    afterAccess (some v) s = (s.setLocal v s.rdata.toNat).advance := by
  simp [afterAccess, h]

/-- Every read completes; it records no fault and leaves HOST where it is. -/
theorem exec_decodeRead_next (r : Reg) (s : State) :
    ∃ t, exec (decodeRead r) s = .next t ∧ t.fault = s.fault ∧ t.host = s.host := by
  obtain h | ⟨-, -, h⟩ := exec_decodeRead_cases r s
  · exact ⟨_, h, rfl, rfl⟩
  · exact ⟨_, h, rfl, rfl⟩

/-- An `RD v, REG` line, from a state without a fault: the read, then its RDATA goes to `v` and HOST goes on. -/
theorem execStmt_rd {t : State} (v : Local) {r : Reg} (hexec : exec (decodeRead r) s = .next t)
    (hfault : t.fault = none) : execStmt (.rd v r) s = .next (t.setLocal v t.rdata.toNat).advance := by
  have hdecode : decode (accessWord false (regOffset r) 0) = .instr (decodeRead r) := by
    simp [decode_accessWord]
  rw [← afterAccess_some_of_no_fault hfault]
  exact hostAccess_of_instr hdecode hexec (some v)

end Sys2Proof.Machine

namespace Sys2Proof

open Machine

/-- Settles O13: the decoder rejects the word, so the access never comes to look at BUSY. -/
theorem reservedCommandFaultsBeforeBusy : Obligations.ReservedCommandFaultsBeforeBusy := by
  intro d dst s hd
  have hrej : decode (accessWord true 2 d) = .rejected (.reservedCommand d) := by
    simp [decode_accessWord, regAt, decodeWrite, (commandReserved_iff d).2 hd]
  exact hostAccess_of_rejected hrej dst s

/-- Settles O9: every access completes, and HOST goes on unless a fault is recorded after it. -/
theorem stepRunsTheDecodedAccess : Obligations.StepRunsTheDecodedAccess := by
  intro s label w i hfault hpick hline hdecode
  obtain ⟨t, hexec, -⟩ := exec_effect i s.pickTaken
  rw [step_of_line hfault hpick hline, hexec]
  exact (hostAccess_of_instr hdecode hexec none).trans (congrArg _ (afterAccess_none t))

/-- Settles O10: a read records no fault, so HOST stores its RDATA and goes on. -/
theorem readLineAnswersIntoItsLocal : Obligations.ReadLineAnswersIntoItsLocal := by
  intro s label v r hfault hpick hline
  obtain ⟨t, hexec, htfault, hthost⟩ := exec_decodeRead_next r s.pickTaken
  have htnone : t.fault = none := by simp [htfault, hfault]
  exact ⟨t, _, hexec, (step_of_line hfault hpick hline).trans (execStmt_rd v hexec htnone), by simp,
    by simp [hthost], rfl, rfl, rfl, rfl, htnone⟩

/-- Settles O11: the line's step is its access, by definition of the line. -/
theorem writeLinePresentsTheExpressionsByte : Obligations.WriteLinePresentsTheExpressionsByte :=
  fun _ _ _ _ hfault hpick hline => step_of_line hfault hpick hline

/-- Settles O56: the assignment writes HOST's locals and position alone. -/
theorem assignmentChangesOneLocal : Obligations.AssignmentChangesOneLocal := by
  intro s v e
  refine ⟨_, rfl, by simp, fun w hne => ?_, rfl, rfl, rfl, rfl, rfl, rfl⟩
  rw [State.localVal_advance, State.localVal_setLocal_other s hne]

end Sys2Proof
end

section
/-! What one step can do to the host's locals, said once (30_encoding R93, 42_host_procedures R170): an
assignment of one, or a clean start with the next program; so the list stays canonical. -/

namespace Sys2Proof.Machine

/-- What a step can do to the list of locals. -/
inductive LocalsEffect (l : List (Local × Nat)) : List (Local × Nat) → Prop where
  | keeps : LocalsEffect l l
  | assigns (v : Local) (n : Nat) : LocalsEffect l (localSet v n l)
  | clears : LocalsEffect l []

theorem LocalsEffect.wf {l l' : List (Local × Nat)} (h : LocalsEffect l l') (hwf : localsWf l = true) :
    localsWf l' = true := by
  cases h with
  | keeps => exact hwf
  | assigns v n => exact localSet_wf v n l hwf
  | clears => rfl

variable {s t : State}

/-! ### HOST -/

theorem AccessEffect.host (h : AccessEffect s t) : t.host = s.host := by
  cases h <;> rfl

theorem afterAccess_localsEffect (dst : Option Local) (s : State) :
    LocalsEffect s.host.locals (afterAccess dst s).host.locals := by
  obtain h | ⟨p, l, h, rfl | ⟨v, n, rfl⟩⟩ := afterAccess_eq dst s <;> rw [h]
  · exact .keeps
  · exact .keeps
  · exact .assigns v n

theorem HostEffect.localsEffect {st : Stmt} (h : HostEffect s st t) :
    LocalsEffect s.host.locals t.host.locals := by
  cases h with
  | control | setsHie | storesOvc | returns | raises => exact .keeps
  | assigns _ v n => exact .assigns v n
  | entersCs v => exact .assigns v _
  | accesses _ dst u hu =>
    rw [← hu.host]
    exact afterAccess_localsEffect dst u

theorem hostStep_localsEffect (h : hostStep s = .next t) : LocalsEffect s.host.locals t.host.locals := by
  obtain ⟨line, -, heffect⟩ | ⟨p, rest, -, -, rfl⟩ | rfl := hostStep_cases h
  · exact heffect.localsEffect
  · exact .clears
  · exact .keeps

/-! ### The other agents leave HOST alone -/

theorem handlerStep_host (h : handlerStep s = .next t) : t.host = s.host := by
  obtain ⟨-, hs⟩ | ⟨-, hs⟩ := handlerStep_cases s <;> cases hs.symm.trans h
  · obtain ⟨n, -, ht⟩ | ⟨-, ht⟩ := s.takeNotification_cases <;> simp [ht]
  · rfl

/-- `t` differs from `s` in IM, TRACE and the inputs at most: what the ENGINE works on (R120). -/
def EngineFrame (s t : State) : Prop :=
  t = { s with im := t.im, trace := t.trace, inputs := t.inputs }

theorem EngineFrame.host (h : EngineFrame s t) : t.host = s.host :=
  (congrArg State.host h :)

theorem receiveByte_frame (v : Byte) (sent : AckAns) (r : Code × Ctx) (s : State) :
    EngineFrame s (receiveByte v sent r s) := by
  obtain ⟨i, hi⟩ := s.rxTaken_eq
  rw [receiveByte, hi]; rfl

theorem receiveError_frame (s : State) : EngineFrame s (receiveError s) := by
  obtain ⟨i, hi⟩ := s.rxTaken_eq
  rw [receiveError, hi]; rfl

/-- Each draw changes the inputs alone, and the rest of a completion writes IM and TRACE. -/
theorem completeCommand_frame (c : Cmd) (b : Byte) (s : State) :
    EngineFrame s (completeCommand c b s) := by
  cases c with
  | start =>
    obtain ⟨i, hi⟩ := s.startTaken_eq
    rw [completeCommand, completeStart, hi]; rfl
  | stop => cases hheld : s.im.held <;> rw [completeCommand, completeStop, hheld] <;> rfl
  | sendAddr =>
    obtain ⟨i, hi⟩ := s.addrTaken_eq
    rw [completeCommand, completeSendAddr, hi]; rfl
  | sendData =>
    obtain ⟨i, hi⟩ := s.txTaken_eq
    rw [completeCommand, completeSendData, hi]; rfl
  | recvAck =>
    rw [completeCommand, completeRecvAck]
    split
    · exact receiveByte_frame ..
    · exact receiveError_frame s
  | recvNack =>
    rw [completeCommand, completeRecvNack]
    split
    · exact receiveByte_frame ..
    · exact receiveError_frame s

theorem engineStep_frame (h : engineStep s = .next t) : EngineFrame s t := by
  obtain ⟨-, hs⟩ | ⟨c, b, -, -, hs⟩ | ⟨-, -, hs⟩ := engineStep_cases s <;> cases hs.symm.trans h
  · rfl
  · exact completeCommand_frame c b s
  · rfl

theorem agentStep_localsEffect {p : Pick} (h : agentStep p s = .next t) :
    LocalsEffect s.host.locals t.host.locals := by
  cases p with
  | host => exact hostStep_localsEffect h
  | handler => rw [handlerStep_host h]; exact .keeps
  | tick => obtain ⟨tc, rfl⟩ := tickStep_eq h; exact .keeps
  | engine => rw [(engineStep_frame h).host]; exact .keeps
  | reset => cases h; exact .keeps

theorem step_localsEffect (h : step s = .next t) : LocalsEffect s.host.locals t.host.locals := by
  simpa using agentStep_localsEffect (step_next h).2

end Sys2Proof.Machine

namespace Sys2Proof

/-- Settles O55: a step keeps the locals, assigns one or clears them, and each keeps the list canonical. -/
theorem stepKeepsLocalsCanonical : Obligations.StepKeepsLocalsCanonical :=
  fun _ _ hwf hstep => (Machine.step_localsEffect hstep).wf hwf

end Sys2Proof
end

section
/-! The legality table (40_i2c_commands R115), and the status code a phase leaves with its context (R108-R114). -/

namespace Sys2Proof.Machine

/-! ### The legality table, by command (R115) -/

section

variable (ctx : Ctx)

@[simp] theorem legal_start : legal ctx .start = true := by cases ctx <;> rfl
@[simp] theorem legal_stop : legal ctx .stop = true := by cases ctx <;> rfl
@[simp] theorem legal_sendAddr : legal ctx .sendAddr = true ↔ ctx = .addr := by cases ctx <;> decide
@[simp] theorem legal_sendData : legal ctx .sendData = true ↔ ctx = .mt := by cases ctx <;> decide
@[simp] theorem legal_recvAck : legal ctx .recvAck = true ↔ ctx = .mr := by cases ctx <;> decide
@[simp] theorem legal_recvNack : legal ctx .recvNack = true ↔ ctx = .mr := by cases ctx <;> decide

end

/-! ### The status code fits the context -/

variable {im im' : Im} {p : Pick}

theorem HostImEffect.code_fits (heffect : HostImEffect im im') (hfits : codeFits im.ctx im.code = true) :
    codeFits im'.ctx im'.code = true := by
  cases heffect with
  | keeps | writesDiv | writesData | accepts => exact hfits
  | fails => rfl

/-- SEND_DATA and RECV_ACK leave the context as it is, so it is their legality that makes DATA_ACK fit. -/
theorem PhaseResult.code_fits {c : Cmd} {r : Code × Ctx} (h : PhaseResult im c r)
    (hlegal : legal im.ctx c = true) : codeFits r.2 r.1 = true := by
  cases h with
  | start ans => cases ans <;> cases im.held <;> rfl
  | stop => rfl
  | sendAddr dir ans => cases ans <;> cases dir <;> rfl
  | sendData ans =>
    rw [(legal_sendData im.ctx).1 hlegal]
    cases ans <;> rfl
  | recvAck => rw [(legal_recvAck im.ctx).1 hlegal]; rfl
  | recvAckError | recvNack | recvNackError => rfl

theorem EngineImEffect.code_fits (heffect : EngineImEffect im im') (h : im.Inv)
    (hfits : codeFits im.ctx im.code = true) : codeFits im'.ctx im'.code = true := by
  cases heffect with
  | idle | finishes => exact hfits
  | completes c b data r _ hpend hr => exact hr.code_fits (h.legal_of_pend hpend)

theorem ImStep.code_fits (hstep : ImStep im p im') (h : im.Inv) (hfits : codeFits im.ctx im.code = true) :
    codeFits im'.ctx im'.code = true := by
  cases hstep with
  | host heffect => exact heffect.code_fits hfits
  | handler | tick => exact hfits
  | engine heffect => exact heffect.code_fits h hfits
  | reset => rfl

end Sys2Proof.Machine

namespace Sys2Proof

/-- Settles O38: the pending command is legal in its context, so its completion leaves a code that fits. -/
theorem stepKeepsCodeFittingContext : Obligations.StepKeepsCodeFittingContext :=
  fun _ _ hinv hfits hstep => (Machine.step_imStep hstep).code_fits hinv hfits

/-- Settles O25: the table, command by command. -/
theorem legalityTableOfCommands : Obligations.LegalityTableOfCommands := by
  intro ctx c
  cases c <;> simp

end Sys2Proof
end

section
/-! The accesses to IM's registers (40_i2c_commands R101-R105, R116-R119) and the commands' accept parts
(R106, R107, R114, R122). -/

namespace Sys2Proof.Machine

/-! ### The six commands but NOP (R84) -/

/-- The access that writes a command. -/
def Cmd.instr : Cmd → Instr
  | .start => .cmdStart
  | .stop => .cmdStop
  | .sendAddr => .cmdSendAddr
  | .sendData => .cmdSendData
  | .recvAck => .cmdRecvAck
  | .recvNack => .cmdRecvNack

theorem exec_instr (c : Cmd) (s : State) : exec c.instr s = acceptCommand c s := by
  cases c <;> rfl

theorem Cmd.instr_mem (c : Cmd) : c.instr ∈ [Instr.cmdStart, .cmdStop, .cmdSendAddr, .cmdSendData,
    .cmdRecvAck, .cmdRecvNack] := by
  cases c <;> decide

theorem exists_instr_of_mem {i : Instr} (h : i ∈ [Instr.cmdStart, .cmdStop, .cmdSendAddr, .cmdSendData,
    .cmdRecvAck, .cmdRecvNack]) : ∃ c : Cmd, c.instr = i := by
  have hmap : i ∈ [Cmd.start, .stop, .sendAddr, .sendData, .recvAck, .recvNack].map Cmd.instr := h
  obtain ⟨c, -, hc⟩ := List.mem_map.1 hmap
  exact ⟨c, hc⟩

variable {c : Cmd} {s t : State}

theorem exec_instr_of_busy (hbusy : s.im.busy = true) : exec c.instr s = .next (s.raise .busyWrite) := by
  simp [exec_instr, acceptCommand, hbusy]

theorem exec_instr_of_legal (hidle : s.im.busy = false) (hlegal : legal s.im.ctx c = true) :
    exec c.instr s = .next (s.setIm (s.im.accept c)) := by
  simp [exec_instr, acceptCommand, hidle, hlegal]

theorem exec_instr_of_illegal (hidle : s.im.busy = false) (hillegal : legal s.im.ctx c = false) :
    exec c.instr s = .next (s.setIm s.im.illegalComplete) := by
  simp [exec_instr, acceptCommand, hidle, hillegal]

/-! ### IM_DATA and IM_STAT -/

theorem exec_wrImData_of_not_busy (hidle : s.im.busy = false) (d : Byte) :
    exec (.wrImData d) s = .next (s.setIm { s.im with data := d }) := by
  simp [exec, execWrImData, hidle]

theorem exec_wrImData_of_busy (hbusy : s.im.busy = true) (d : Byte) :
    exec (.wrImData d) s = .next (s.raise .busyWrite) :=
  if_pos hbusy

/-- The fields of IM_STAT stand at bits 7, 6, 5 and 2:0 (R87). -/
theorem statByte_eq_ofNat (im : Im) : statByte im = BitVec.ofNat 8
    (128 * im.done.toNat + 64 * im.busy.toNat + 32 * im.held.toNat + im.code.value.toNat) := by
  have hbits : ∀ (done busy held : Bool) (code : BitVec 3),
      BitVec.ofBool done ++ BitVec.ofBool busy ++ BitVec.ofBool held ++ (0 : BitVec 2) ++ code =
        BitVec.ofNat 8 (128 * done.toNat + 64 * busy.toNat + 32 * held.toNat + code.toNat) := by
    decide
  exact hbits im.done im.busy im.held im.code.value

/-! ### What the writes to IM and to offset 7 can do -/

/-- What a write to IM or to offset 7 can do, by its access. -/
inductive ImWriteEffect (s : State) : Instr → State → Prop where
  | nothing (i : Instr) : ImWriteEffect s i s
  | writesDiv (d : Byte) : ImWriteEffect s (.wrImDiv d) (s.setIm { s.im with div := d })
  | writesData (d : Byte) : ImWriteEffect s (.wrImData d) (s.setIm { s.im with data := d })
  | dataWhileBusy (d : Byte) : s.im.busy = true → ImWriteEffect s (.wrImData d) (s.raise .busyWrite)
  | commandWhileBusy (c : Cmd) : s.im.busy = true → ImWriteEffect s c.instr (s.raise .busyWrite)
  | accepts (c : Cmd) : ImWriteEffect s c.instr (s.setIm (s.im.accept c))
  | fails (c : Cmd) : ImWriteEffect s c.instr (s.setIm s.im.illegalComplete)

theorem imWriteEffect_of_instr (h : exec c.instr s = .next t) : ImWriteEffect s c.instr t := by
  rw [exec_instr] at h
  obtain ⟨hbusy, hs⟩ | ⟨-, -, hs⟩ | ⟨-, -, hs⟩ := acceptCommand_cases c s <;> cases hs.symm.trans h
  · exact .commandWhileBusy c hbusy
  · exact .accepts c
  · exact .fails c

theorem imWriteEffect_of_wrImData {d : Byte} (h : exec (.wrImData d) s = .next t) :
    ImWriteEffect s (.wrImData d) t := by
  cases hbusy : s.im.busy with
  | true =>
    cases (exec_wrImData_of_busy hbusy d).symm.trans h
    exact .dataWhileBusy d hbusy
  | false =>
    cases (exec_wrImData_of_not_busy hbusy d).symm.trans h
    exact .writesData d

theorem imWriteEffect_of_exec {i : Instr}
    (hi : i ∈ [Instr.cmdNop, .cmdStart, .cmdStop, .cmdSendAddr, .cmdSendData, .cmdRecvAck, .cmdRecvNack] ∨
      ∃ d, i = .wrImDiv d ∨ i = .wrImData d ∨ i = .wrImStat d ∨ i = .wrRsvd7 d)
    (h : exec i s = .next t) : ImWriteEffect s i t := by
  obtain hcmd | ⟨d, rfl | rfl | rfl | rfl⟩ := hi
  · obtain rfl | hcmd := List.mem_cons.1 hcmd
    · cases h; exact .nothing _
    · obtain ⟨c, rfl⟩ := exists_instr_of_mem hcmd
      exact imWriteEffect_of_instr h
  · cases h; exact .writesDiv d
  · exact imWriteEffect_of_wrImData h
  · cases h; exact .nothing _
  · cases h; exact .nothing _

variable {i : Instr}

/-- None of these writes reaches beyond IM and FAULT. -/
theorem ImWriteEffect.frame (h : ImWriteEffect s i t) : t = { s with im := t.im, fault := t.fault } := by
  cases h <;> rfl

theorem ImWriteEffect.held (h : ImWriteEffect s i t) : t.im.held = s.im.held := by
  cases h <;> rfl

theorem ImWriteEffect.div (h : ImWriteEffect s i t) (hi : ∀ d, i ≠ .wrImDiv d) : t.im.div = s.im.div := by
  cases h with
  | writesDiv d => exact absurd rfl (hi d)
  | nothing | writesData | dataWhileBusy | commandWhileBusy | accepts | fails => rfl

theorem ImWriteEffect.data (h : ImWriteEffect s i t) (hi : ∀ d, i ≠ .wrImData d) :
    t.im.data = s.im.data := by
  cases h with
  | writesData d => exact absurd rfl (hi d)
  | nothing | writesDiv | dataWhileBusy | commandWhileBusy | accepts | fails => rfl

theorem ImWriteEffect.of_not_command (h : ImWriteEffect s i t)
    (hi : i ∉ [Instr.cmdStart, .cmdStop, .cmdSendAddr, .cmdSendData, .cmdRecvAck, .cmdRecvNack]) :
    t.im = { s.im with div := t.im.div, data := t.im.data } ∧
      ((∀ d, i ≠ .wrImData d) → t.fault = s.fault) := by
  cases h with
  | nothing | writesDiv | writesData => exact ⟨rfl, fun _ => rfl⟩
  | dataWhileBusy d => exact ⟨rfl, fun hdata => absurd rfl (hdata d)⟩
  | commandWhileBusy c | accepts c | fails c => exact absurd c.instr_mem hi

theorem ImWriteEffect.fault_of_not_busy (h : ImWriteEffect s i t) (hidle : s.im.busy = false) :
    t.fault = s.fault := by
  cases h with
  | nothing | writesDiv | writesData | accepts | fails => rfl
  | dataWhileBusy _ hbusy | commandWhileBusy _ hbusy => simp [hidle] at hbusy

end Sys2Proof.Machine

namespace Sys2Proof

open Machine

/-- Settles O26: the four accesses are their commands', each illegal and not busy. -/
theorem illegalInContextCommandFailsAtOnce : Obligations.IllegalInContextCommandFailsAtOnce := by
  intro i c s hmem hidle hillegal
  have hmap : (i, c) ∈ [Cmd.sendAddr, .sendData, .recvAck, .recvNack].map fun c => (c.instr, c) := hmem
  obtain ⟨c', -, hc⟩ := List.mem_map.1 hmap
  cases hc
  exact exec_instr_of_illegal hidle hillegal

/-- Settles O27: BUSY is looked at before the context. -/
theorem commandWhileBusyRaisesBusyWrite : Obligations.CommandWhileBusyRaisesBusyWrite := by
  intro i s hmem hbusy
  obtain ⟨c, rfl⟩ := exists_instr_of_mem hmem
  exact exec_instr_of_busy hbusy

/-- Settles O53: each effect of these writes is on its own register, or on FAULT while `BUSY = 1`. -/
theorem imWritesTouchOnlyTheirRegister : Obligations.ImWritesTouchOnlyTheirRegister := by
  intro i s t hi hexec
  have heffect := imWriteEffect_of_exec hi hexec
  have hframe := heffect.frame
  exact ⟨(congrArg State.tc hframe :), (congrArg State.hostside hframe :), (congrArg State.trace hframe :),
    (congrArg State.rdata hframe :), (congrArg State.host hframe :), (congrArg State.inputs hframe :),
    heffect.held, heffect.div, heffect.data, heffect.of_not_command, heffect.fault_of_not_busy⟩

/-- Settles O16: the reads return `readValue`, and IM_STAT's byte is the sum of its fields. -/
theorem readsOfImReturnTheRegister : Obligations.ReadsOfImReturnTheRegister :=
  ⟨rfl, rfl, rfl, rfl, rfl, rfl, rfl, rfl, rfl, rfl, rfl, rfl, fun s =>
    ⟨exec_decodeRead (r := .imDiv) nofun, exec_decodeRead (r := .imCmd) nofun,
      exec_decodeRead (r := .rsvd7) nofun, by
        rw [← statByte_eq_ofNat]
        exact exec_decodeRead (r := .imStat) nofun⟩⟩

/-- Settles O17: only while `BUSY = 1` is the byte a free one. -/
theorem readOfDataIsFreeOnlyWhileBusy : Obligations.ReadOfDataIsFreeOnlyWhileBusy :=
  ⟨rfl, fun _ hidle => exec_decodeRead (r := .imData) fun _ => hidle, fun _ hbusy => exec_rdImData_of_busy hbusy⟩

/-- Settles O20: the write of DIV looks at nothing else. -/
theorem writeOfDivStoresEveryValue : Obligations.WriteOfDivStoresEveryValue :=
  fun d _ => ⟨decode_accessWord true 0 d, rfl⟩

/-- Settles O21: the write of DATA looks at BUSY alone. -/
theorem writeOfDataStoresUnlessBusy : Obligations.WriteOfDataStoresUnlessBusy :=
  fun d _ => ⟨decode_accessWord true 1 d, fun hidle => exec_wrImData_of_not_busy hidle d,
    fun hbusy => exec_wrImData_of_busy hbusy d⟩

/-- Settles O22: each of the four answers its own state. -/
theorem nopAndIgnoredWritesChangeNothing : Obligations.NopAndIgnoredWritesChangeNothing :=
  ⟨rfl, fun d _ => ⟨decode_accessWord true 3 d, decode_accessWord true 7 d, decode_accessWord true 5 d,
    rfl, rfl, rfl, rfl⟩⟩

end Sys2Proof
end

section
/-! The ENGINE's completions (40_i2c_commands R108-R113, R120) and the trace (R124): what each appends to TRACE
and leaves in IM, and that no other agent appends. -/

namespace Sys2Proof.Machine

/-- What the ENGINE leaves alone. -/
theorem EngineFrame.unchanged {s t : State} (h : EngineFrame s t) :
    t.tc = s.tc ∧ t.hostside = s.hostside ∧ t.host = s.host ∧ t.rdata = s.rdata ∧ t.fault = s.fault := by
  rw [h]
  exact ⟨rfl, rfl, rfl, rfl, rfl⟩

/-! ### The receives -/

/-- RECV_ACK and RECV_NACK in one: `sent` answers a byte, which leaves `result` (R112, R113). -/
def completeReceive (sent : AckAns) (result : Code × Ctx) (s : State) : State :=
  match s.rxAnswer with
  | some v => receiveByte v sent result s
  | none => receiveError s

theorem completeRecvAck_eq (s : State) :
    completeRecvAck s = completeReceive .ack (recvAckResult s.im.ctx) s := rfl

theorem completeRecvNack_eq (s : State) :
    completeRecvNack s = completeReceive .nack recvNackResult s := rfl

/-! ### The events of a completion -/

/-- The event of a receive with the bus's answer; `sent` answers a byte (R112, R113). -/
def rxEvent (sent : AckAns) : Option Byte → BusEvent
  | some v => .rx (some v) sent
  | none => .rx none .err

/-- The events that the completion of a command with the latched byte `b` appends to TRACE (R108-R113). -/
def phaseEvents (s : State) (b : Byte) : Cmd → List BusEvent
  | .start => [if s.im.held then .rstart s.startAnswer else .start s.startAnswer]
  | .stop => if s.im.held then [.stop] else []
  | .sendAddr => [.addr (addrOf b) (dirOf b) (s.addrAnswer (addrOf b) (dirOf b))]
  | .sendData => [.tx b (s.txAnswer b)]
  | .recvAck => [rxEvent .ack s.rxAnswer]
  | .recvNack => [rxEvent .nack s.rxAnswer]

theorem completeReceive_trace (sent : AckAns) (result : Code × Ctx) (s : State) :
    (completeReceive sent result s).trace = s.trace ++ [rxEvent sent s.rxAnswer] := by
  cases hrx : s.rxAnswer <;> simp [completeReceive, receiveByte, receiveError, rxEvent, hrx]

theorem completeCommand_trace (c : Cmd) (b : Byte) (s : State) :
    (completeCommand c b s).trace = s.trace ++ phaseEvents s b c := by
  cases c with
  | start => simp [completeCommand, completeStart, phaseEvents]
  | stop => cases hheld : s.im.held <;> simp [completeCommand, completeStop, phaseEvents, hheld]
  | sendAddr => simp [completeCommand, completeSendAddr, phaseEvents]
  | sendData => simp [completeCommand, completeSendData, phaseEvents]
  | recvAck => exact completeReceive_trace .ack _ s
  | recvNack => exact completeReceive_trace .nack _ s

theorem phaseEvents_eq_nil {c : Cmd} {s : State} (h : c = .stop ∧ s.im.held = false) (b : Byte) :
    phaseEvents s b c = [] := by
  obtain ⟨rfl, hrel⟩ := h
  simp [phaseEvents, hrel]

theorem exists_phaseEvents_eq_singleton {c : Cmd} {s : State} (h : ¬(c = .stop ∧ s.im.held = false))
    (b : Byte) : ∃ e, phaseEvents s b c = [e] := by
  cases c with
  | stop => exact ⟨.stop, by simpa [phaseEvents] using h⟩
  | start | sendAddr | sendData | recvAck | recvNack => exact ⟨_, rfl⟩

theorem rxEvent_ne_stop (sent : AckAns) (answer : Option Byte) : rxEvent sent answer ≠ .stop := by
  cases answer <;> exact nofun

theorem count_stop_phaseEvents (c : Cmd) (b : Byte) (s : State) :
    (phaseEvents s b c).count .stop = if c = .stop ∧ s.im.held = true then 1 else 0 := by
  cases c with
  | start | stop => cases hheld : s.im.held <;> simp [phaseEvents, hheld]
  | sendAddr | sendData => simp [phaseEvents]
  | recvAck | recvNack => simp [phaseEvents, rxEvent_ne_stop]

/-! ### IM after a completion -/

theorem addrResult_of_ne_ack {ans : AckAns} (h : ans ≠ .ack) (dir : Bool) :
    addrResult dir ans = phaseFailure := by
  cases ans with
  | ack => exact absurd rfl h
  | nack | err => rfl

theorem txResult_of_ne_ack {ans : AckAns} (h : ans ≠ .ack) (ctx : Ctx) : txResult ctx ans = phaseFailure := by
  cases ans with
  | ack => exact absurd rfl h
  | nack | err => rfl

theorem completeStart_im (s : State) : (completeStart s).im =
    { s.im with held := true }.complete (startResult s.im.held s.startAnswer) := rfl

theorem completeSendAddr_im (b : Byte) (s : State) : (completeSendAddr b s).im =
    s.im.complete (addrResult (dirOf b) (s.addrAnswer (addrOf b) (dirOf b))) := rfl

theorem completeSendData_im (b : Byte) (s : State) : (completeSendData b s).im =
    s.im.complete (txResult s.im.ctx (s.txAnswer b)) := rfl

theorem completeReceive_im_of_byte {s : State} {v : Byte} (h : s.rxAnswer = some v) (sent : AckAns)
    (result : Code × Ctx) :
    (completeReceive sent result s).im = { s.im with data := v }.complete result := by
  simp [completeReceive, h]

theorem completeReceive_im_of_error {s : State} (h : s.rxAnswer = none) (sent : AckAns)
    (result : Code × Ctx) : (completeReceive sent result s).im =
      { s.im with data := s.rxTaken.freeByte }.complete phaseFailure := by
  simp [completeReceive, h]

/-- The ENGINE's step on a pending receive: DATA, CODE and CTX, TRACE, and what it leaves alone. -/
theorem engineStep_of_receive {c : Cmd} {b : Byte} {s : State} {sent : AckAns} {result : Code × Ctx}
    (hbusy : s.im.busy = true) (hpend : s.im.pend = some (c, b))
    (hc : completeCommand c b s = completeReceive sent result s) :
    ∃ t, engineStep s = .next t ∧
      (∀ v, s.rxAnswer = some v → t.im = { s.im with data := v }.complete result ∧
        t.trace = s.trace ++ [.rx (some v) sent]) ∧
      (s.rxAnswer = none → t.im = { s.im with data := s.rxTaken.freeByte }.complete phaseFailure ∧
        t.trace = s.trace ++ [.rx none .err]) ∧
      t.tc = s.tc ∧ t.hostside = s.hostside ∧ t.host = s.host ∧ t.rdata = s.rdata ∧ t.fault = s.fault := by
  have hframe := (completeCommand_frame c b s).unchanged
  rw [hc] at hframe
  refine ⟨_, (engineStep_of_pend hbusy hpend).trans (congrArg _ hc), fun v hbyte => ?byte,
    fun herr => ?error, hframe⟩
  case byte => exact ⟨completeReceive_im_of_byte hbyte _ _, by rw [completeReceive_trace, hbyte]; rfl⟩
  case error => exact ⟨completeReceive_im_of_error herr _ _, by rw [completeReceive_trace, herr]; rfl⟩

/-! ### The address byte (30_encoding R85) -/

@[simp] theorem addrOf_addrByte (a7 : TargetAddr) (dir : Bool) : addrOf (addrByte a7 dir) = a7 :=
  BitVec.extractLsb'_append_eq_left

@[simp] theorem dirOf_addrByte (a7 : TargetAddr) (dir : Bool) : dirOf (addrByte a7 dir) = dir := by
  simp only [dirOf, addrByte, BitVec.getLsbD_append]
  simp

/-! ### The other agents leave TRACE alone -/

variable {s t : State}

@[simp] theorem afterAccess_trace (dst : Option Local) (s : State) : (afterAccess dst s).trace = s.trace := by
  obtain h | ⟨p, l, h, -⟩ := afterAccess_eq dst s
  · rw [h]
  · rw [h, State.setHost_trace]

theorem AccessEffect.trace (h : AccessEffect s t) : t.trace = s.trace := by
  cases h <;> rfl

theorem HostEffect.trace {st : Stmt} (h : HostEffect s st t) : t.trace = s.trace := by
  cases h with
  | control | assigns | entersCs | setsHie | storesOvc | returns | raises => rfl
  | accesses _ dst u hu => rw [afterAccess_trace, hu.trace]

theorem hostStep_trace (h : hostStep s = .next t) : t.trace = s.trace := by
  obtain ⟨line, -, heffect⟩ | ⟨p, rest, -, -, rfl⟩ | rfl := hostStep_cases h
  · exact heffect.trace
  · rfl
  · rfl

theorem handlerStep_trace (h : handlerStep s = .next t) : t.trace = s.trace := by
  obtain ⟨-, hs⟩ | ⟨-, hs⟩ := handlerStep_cases s <;> cases hs.symm.trans h
  · obtain ⟨n, -, ht⟩ | ⟨-, ht⟩ := s.takeNotification_cases <;> simp [ht]
  · rfl

theorem agentStep_trace {p : Pick} (h : agentStep p s = .next t) (hengine : p ≠ .engine)
    (hreset : p ≠ .reset) : t.trace = s.trace := by
  cases p with
  | host => exact hostStep_trace h
  | handler => exact handlerStep_trace h
  | tick => obtain ⟨tc, rfl⟩ := tickStep_eq h; rfl
  | engine => exact absurd rfl hengine
  | reset => exact absurd rfl hreset

theorem step_trace (h : step s = .next t) (hengine : s.nextPick ≠ .engine) (hreset : s.nextPick ≠ .reset) :
    t.trace = s.trace := by
  simpa using agentStep_trace (step_next h).2 hengine hreset

end Sys2Proof.Machine

namespace Sys2Proof

open Machine

/-- Settles O28: START is legal in every context; its completion follows the bus's answer. -/
theorem startIssuesStartOrRepeatedStart : Obligations.StartIssuesStartOrRepeatedStart := by
  refine ⟨rfl, fun s hidle => exec_instr_of_legal (c := .start) hidle (legal_start _), fun s b hbusy hpend => ?_⟩
  refine ⟨_, engineStep_of_pend hbusy hpend, completeCommand_trace _ b s, fun hok => ?ok, fun herr => ?err,
    (completeCommand_frame _ b s).unchanged⟩
  case ok => rw [completeCommand, completeStart_im, hok]; rfl
  case err => rw [completeCommand, completeStart_im, herr]; rfl

/-- Settles O29: STOP is legal in every context; its completion draws no answer. -/
theorem stopReleasesTheBus : Obligations.StopReleasesTheBus := by
  refine ⟨rfl, fun s hidle => exec_instr_of_legal (c := .stop) hidle (legal_stop _), fun s b hbusy hpend => ?_⟩
  rw [engineStep_of_pend hbusy hpend, completeCommand, completeStop]
  cases hheld : s.im.held <;> rfl

/-- Settles O30: the latched byte gives the address and the direction; its completion follows the answer. -/
theorem sendAddrSendsTheLatchedAddress : Obligations.SendAddrSendsTheLatchedAddress := by
  refine ⟨rfl, fun s hidle hctx => exec_instr_of_legal (c := .sendAddr) hidle ((legal_sendAddr _).2 hctx),
    fun s a7 dir hbusy hpend => ?_⟩
  replace hpend : s.im.pend = some (.sendAddr, addrByte a7 dir) := hpend
  refine ⟨_, engineStep_of_pend hbusy hpend, ?trace, fun hack => ?ack, fun hfail => ?fail,
    (completeCommand_frame _ _ s).unchanged⟩
  case trace => simp [completeCommand_trace, phaseEvents]
  case ack =>
    rw [completeCommand, completeSendAddr_im, addrOf_addrByte, dirOf_addrByte, hack]
    cases dir <;> rfl
  case fail =>
    rw [completeCommand, completeSendAddr_im, addrOf_addrByte, dirOf_addrByte, addrResult_of_ne_ack hfail]
    rfl

/-- Settles O31: the latched byte is sent; its completion follows the answer. -/
theorem sendDataSendsTheLatchedByte : Obligations.SendDataSendsTheLatchedByte := by
  refine ⟨rfl, fun s hidle hctx => exec_instr_of_legal (c := .sendData) hidle ((legal_sendData _).2 hctx),
    fun s b hbusy hpend => ?_⟩
  refine ⟨_, engineStep_of_pend hbusy hpend, completeCommand_trace _ b s, fun hack => ?ack, fun hfail => ?fail,
    (completeCommand_frame _ b s).unchanged⟩
  case ack => rw [completeCommand, completeSendData_im, hack]; rfl
  case fail => rw [completeCommand, completeSendData_im, txResult_of_ne_ack hfail]; rfl

/-- Settles O32: a receive that ACKs its byte and stays in its context. -/
theorem recvAckReceivesAByteAndAcks : Obligations.RecvAckReceivesAByteAndAcks :=
  ⟨rfl, fun _ hidle hctx => exec_instr_of_legal (c := .recvAck) hidle ((legal_recvAck _).2 hctx),
    fun s _ hbusy hpend => engineStep_of_receive hbusy hpend (completeRecvAck_eq s)⟩

/-- Settles O33: a receive that NACKs its byte and ends in MR_END. -/
theorem recvNackReceivesTheLastByte : Obligations.RecvNackReceivesTheLastByte :=
  ⟨rfl, fun _ hidle hctx => exec_instr_of_legal (c := .recvNack) hidle ((legal_recvNack _).2 hctx),
    fun s _ hbusy hpend => engineStep_of_receive hbusy hpend (completeRecvNack_eq s)⟩

/-- Settles O35: every completion, and the step with nothing pending, ends in `finish()`. -/
theorem engineStepEndsInFinish : Obligations.EngineStepEndsInFinish := by
  refine ⟨fun s => engineStep_of_not_busy, fun s hbusy => ?_⟩
  cases hpend : s.im.pend with
  | none => exact ⟨_, engineStep_of_no_pend hbusy hpend, rfl, rfl, rfl, rfl⟩
  | some p =>
    obtain ⟨data, r, -, him⟩ := completeCommand_im p.1 p.2 s
    exact ⟨_, engineStep_of_pend hbusy hpend, by simp [him]⟩

/-- Settles O36: a completion appends `phaseEvents`, and the agents but the ENGINE append none. -/
theorem traceGrowsByOneEventPerCompletion : Obligations.TraceGrowsByOneEventPerCompletion := by
  refine ⟨fun s t c b hbusy hpend hstep => ?_, fun s t => step_trace⟩
  cases (engineStep_of_pend hbusy hpend).symm.trans hstep
  rw [completeCommand_trace]
  refine ⟨fun hnone => ?_, fun hsome => ?_, ?_⟩
  · rw [phaseEvents_eq_nil hnone, List.append_nil]
  · obtain ⟨e, he⟩ := exists_phaseEvents_eq_singleton hsome b
    exact ⟨e, by rw [he]⟩
  · rw [List.count_append, count_stop_phaseEvents]

end Sys2Proof
end

section
/-! What one step can do to TC, said once (10_state R35-R38, 41_counter R154): HOST's accesses write RUN and OVIE
or clear OVF (R141, R145), the HANDLER clears OVF (R151), a TICK ticks (R148), and the reset sets all. -/

namespace Sys2Proof.Machine

/-! ### The tick (R148) -/

theorem Tc.tick_of_eq_255 {tc : Tc} (h : tc.cnt = 255) : tc.tick = { tc with cnt := 0, ovf := true } :=
  if_pos h

theorem Tc.tick_of_ne_255 {tc : Tc} (h : tc.cnt ≠ 255) : tc.tick = { tc with cnt := tc.cnt + 1 } :=
  if_neg h

/-- The wrap is the sum modulo 256. -/
@[simp] theorem Tc.tick_cnt (tc : Tc) : tc.tick.cnt = tc.cnt + 1 := by
  obtain ⟨hcnt, h⟩ | ⟨-, h⟩ := tc.tick_cases <;> rw [h]
  rw [hcnt]; rfl

theorem tickStep_of_run {s : State} (h : s.tc.run = true) : tickStep s = .next (s.setTc s.tc.tick) :=
  if_pos h

theorem tickStep_of_not_run {s : State} (h : s.tc.run = false) : tickStep s = .next s := by
  simp [tickStep, h]

/-! ### The notification (R151) -/

theorem State.takeNotification_of_written {s : State} {n : Word64} (h : s.hostside.ovc = some n) :
    s.takeNotification =
      (s.setTc { s.tc with ovf := false }).setHostSide { s.hostside with ovc := some (n + 1) } := by
  simp [State.takeNotification, h]

theorem State.takeNotification_of_unwritten {s : State} (h : s.hostside.ovc = none) :
    s.takeNotification = (s.setTc { s.tc with ovf := false }).raise .ovcUnwritten := by
  simp [State.takeNotification, h]

theorem handlerStep_of_enabled {s : State} (h : handlerEnabled s = true) :
    handlerStep s = .next s.takeNotification :=
  if_pos h

theorem handlerStep_of_not_enabled {s : State} (h : handlerEnabled s = false) :
    handlerStep s = .next s := by
  simp [handlerStep, h]

/-! ### HOST -/

@[simp] theorem afterAccess_tc (dst : Option Local) (s : State) : (afterAccess dst s).tc = s.tc := by
  obtain h | ⟨p, l, h, -⟩ := afterAccess_eq dst s
  · rw [h]
  · rw [h, State.setHost_tc]

/-- What a HOST step can do to TC. -/
inductive HostTcEffect (tc : Tc) : Tc → Prop where
  | keeps : HostTcEffect tc tc
  | writesCtrl (run ovie : Bool) : HostTcEffect tc { tc with run := run, ovie := ovie }
  | clearsOvf : HostTcEffect tc { tc with ovf := false }

theorem AccessEffect.hostTcEffect {s t : State} (h : AccessEffect s t) : HostTcEffect s.tc t.tc := by
  cases h with
  | nothing | returns | returnsFree | writesDiv | writesData | busyWrite | accepts | fails => exact .keeps
  | writesCtrl run ovie => exact .writesCtrl run ovie
  | clearsOvf => exact .clearsOvf

theorem HostEffect.hostTcEffect {s t : State} {st : Stmt} (h : HostEffect s st t) :
    HostTcEffect s.tc t.tc := by
  cases h with
  | control | assigns | entersCs | setsHie | storesOvc | returns | raises => exact .keeps
  | accesses _ dst u hu => simpa using hu.hostTcEffect

theorem hostStep_hostTcEffect {s t : State} (h : hostStep s = .next t) : HostTcEffect s.tc t.tc := by
  obtain ⟨line, -, heffect⟩ | ⟨p, rest, -, -, rfl⟩ | rfl := hostStep_cases h
  · exact heffect.hostTcEffect
  · exact .keeps
  · exact .keeps

/-! ### Every agent, and the reset input -/

@[simp] theorem State.takeNotification_tc (s : State) :
    s.takeNotification.tc = { s.tc with ovf := false } := by
  obtain ⟨n, -, h⟩ | ⟨-, h⟩ := s.takeNotification_cases <;> simp [h]

/-- What a step can do to TC, by the agent that moves. -/
inductive TcStep (tc : Tc) : Pick → Tc → Prop where
  | keeps (p : Pick) : TcStep tc p tc
  | host {tc' : Tc} : HostTcEffect tc tc' → TcStep tc .host tc'
  | handler : TcStep tc .handler { tc with ovf := false }
  | tick : tc.run = true → TcStep tc .tick tc.tick
  | reset : TcStep tc .reset Tc.reset

theorem handlerStep_tcStep {s t : State} (h : handlerStep s = .next t) : TcStep s.tc .handler t.tc := by
  obtain ⟨-, hs⟩ | ⟨-, hs⟩ := handlerStep_cases s <;> cases hs.symm.trans h
  · rw [s.takeNotification_tc]; exact .handler
  · exact .keeps .handler

theorem tickStep_tcStep {s t : State} (h : tickStep s = .next t) : TcStep s.tc .tick t.tc := by
  obtain ⟨hrun, hs⟩ | ⟨-, hs⟩ := tickStep_cases s <;> cases hs.symm.trans h
  · exact .tick hrun
  · exact .keeps .tick

theorem engineStep_tc {s t : State} (h : engineStep s = .next t) : t.tc = s.tc :=
  (engineStep_frame h).unchanged.1

theorem agentStep_tcStep {p : Pick} {s t : State} (h : agentStep p s = .next t) : TcStep s.tc p t.tc := by
  cases p with
  | host => exact .host (hostStep_hostTcEffect h)
  | handler => exact handlerStep_tcStep h
  | tick => exact tickStep_tcStep h
  | engine => rw [engineStep_tc h]; exact .keeps .engine
  | reset => cases h; exact .reset

theorem step_tcStep {s t : State} (h : step s = .next t) : TcStep s.tc s.nextPick t.tc := by
  simpa using agentStep_tcStep (step_next h).2

/-! ### CNT and OVF -/

variable {tc tc' : Tc} {p : Pick}

theorem HostTcEffect.cnt (h : HostTcEffect tc tc') : tc'.cnt = tc.cnt := by
  cases h <;> rfl

theorem HostTcEffect.ovf_of_ovf (h : HostTcEffect tc tc') (hovf : tc'.ovf = true) : tc.ovf = true := by
  cases h with
  | keeps | writesCtrl => exact hovf
  | clearsOvf => nomatch hovf

/-- Only the tick moves CNT, the reset apart. -/
theorem TcStep.cnt_eq_or_tick (h : TcStep tc p tc') (hreset : p ≠ .reset) :
    tc'.cnt = tc.cnt ∨ (p = .tick ∧ tc.run = true ∧ tc' = tc.tick) := by
  cases h with
  | keeps | handler => exact .inl rfl
  | host heffect => exact .inl heffect.cnt
  | tick hrun => exact .inr ⟨rfl, hrun, rfl⟩
  | reset => exact absurd rfl hreset

/-- Only the tick sets OVF. -/
theorem TcStep.tick_of_sets_ovf (h : TcStep tc p tc') (hclear : tc.ovf = false) (hset : tc'.ovf = true) :
    tc' = tc.tick := by
  cases h with
  | keeps => simp [hclear] at hset
  | host heffect => simp [heffect.ovf_of_ovf hset] at hclear
  | handler | reset => nomatch hset
  | tick => rfl

/-- The tick that sets OVF wraps (R147). -/
theorem TcStep.wraps_of_sets_ovf (h : TcStep tc p tc') (hclear : tc.ovf = false) (hset : tc'.ovf = true) :
    tc.cnt = 255 ∧ tc'.cnt = 0 := by
  obtain rfl := h.tick_of_sets_ovf hclear hset
  obtain ⟨hcnt, htick⟩ | ⟨-, htick⟩ := tc.tick_cases <;> rw [htick] at hset ⊢
  · exact ⟨hcnt, rfl⟩
  · simp [hclear] at hset

/-- The tick that wraps sets OVF (R147). -/
theorem TcStep.ovf_of_wraps (h : TcStep tc p tc') (hcnt : tc.cnt = 255) (hcnt' : tc'.cnt = 0)
    (hreset : p ≠ .reset) : tc'.ovf = true := by
  obtain hkeeps | ⟨-, -, rfl⟩ := h.cnt_eq_or_tick hreset
  · rw [hkeeps, hcnt] at hcnt'
    nomatch hcnt'
  · rw [Tc.tick_of_eq_255 hcnt]

end Sys2Proof.Machine

namespace Sys2Proof

open Machine

/-- Settles O42: `Tc.tick` by whether it wraps, where `RUN = 1`. -/
theorem tickCountsAndWrapsWithOvf : Obligations.TickCountsAndWrapsWithOvf := by
  intro s
  refine ⟨fun hrun hcnt => ?wraps, fun hrun hcnt => ?counts, fun hstopped => tickStep_of_not_run hstopped⟩
  case wraps => rw [tickStep_of_run hrun, Tc.tick_of_eq_255 hcnt]; rfl
  case counts => rw [tickStep_of_run hrun, Tc.tick_of_ne_255 hcnt]; rfl

/-- Settles O43: of all effects on TC, only the tick's wrap sets OVF, and only it takes CNT from 255 to 0. -/
theorem wrapAndOverflowAreVisibleTogether : Obligations.WrapAndOverflowAreVisibleTogether :=
  fun _ _ hstep => ⟨(step_tcStep hstep).wraps_of_sets_ovf, (step_tcStep hstep).ovf_of_wraps⟩

/-- Settles O44: of all effects on TC, only the tick's writes CNT, the reset apart. -/
theorem counterChangesOnlyByTicks : Obligations.CounterChangesOnlyByTicks := by
  intro s t hstep hreset
  obtain hkeeps | ⟨hpick, hrun, htick⟩ := (step_tcStep hstep).cnt_eq_or_tick hreset
  · exact .inl hkeeps
  · exact .inr ⟨hpick, hrun, by rw [htick, Tc.tick_cnt, BitVec.toNat_add]; rfl⟩

/-- Settles O45: the step takes the notification exactly where it is enabled. -/
theorem handlerClearsOvfAndCountsTheWrap : Obligations.HandlerClearsOvfAndCountsTheWrap := by
  refine ⟨fun s n hovf hovie hhie hovc => ?written, fun s hovf hovie hhie hovc => ?unwritten,
    fun s hdisabled => ?disabled⟩
  case written =>
    have hs := handlerStep_of_enabled ((handlerEnabled_iff s).2 ⟨hovf, hovie, hhie⟩)
    exact ⟨n + 1, hs.trans (congrArg _ (State.takeNotification_of_written hovc)), BitVec.toNat_add n 1⟩
  case unwritten =>
    have hs := handlerStep_of_enabled ((handlerEnabled_iff s).2 ⟨hovf, hovie, hhie⟩)
    exact hs.trans (congrArg _ (State.takeNotification_of_unwritten hovc))
  case disabled =>
    refine handlerStep_of_not_enabled (Bool.eq_false_iff.2 fun henabled => ?_)
    obtain ⟨hovf, hovie, hhie⟩ := (handlerEnabled_iff s).1 henabled
    simp [hovf, hovie, hhie] at hdisabled

end Sys2Proof
end

section
/-! The accesses to TC's registers (41_counter R140-R145). -/

namespace Sys2Proof.Machine

/-! ### Bits and bytes (30_encoding R82, R88) -/

theorem ctrlRun_eq (d : Byte) : ctrlRun d = decide (d.toNat % 2 = 1) :=
  Nat.testBit_zero d.toNat

theorem ctrlOvie_eq (d : Byte) : ctrlOvie d = decide (d.toNat / 2 % 2 = 1) :=
  (Nat.testBit_succ d.toNat 0).trans (Nat.testBit_zero _)

theorem flagClear_eq (d : Byte) : flagClear d = decide (d.toNat % 2 = 1) :=
  Nat.testBit_zero d.toNat

/-- OVIE stands at bit 1 and RUN at bit 0. -/
theorem ctrlByte_eq_ofNat (tc : Tc) :
    ctrlByte tc = BitVec.ofNat 8 (2 * tc.ovie.toNat + tc.run.toNat) := by
  have hbits : ∀ run ovie : Bool, (0 : BitVec 6) ++ BitVec.ofBool ovie ++ BitVec.ofBool run =
      BitVec.ofNat 8 (2 * ovie.toNat + run.toNat) := by
    decide
  exact hbits tc.run tc.ovie

theorem flagByte_eq_ofNat (tc : Tc) : flagByte tc = BitVec.ofNat 8 tc.ovf.toNat := by
  have hbits : ∀ ovf : Bool, bitByte ovf = BitVec.ofNat 8 ovf.toNat := by decide
  exact hbits tc.ovf

/-! ### The writes -/

theorem exec_wrTcCtrl (d : Byte) (s : State) :
    exec (.wrTcCtrl d) s = .next (s.setTc { s.tc with run := ctrlRun d, ovie := ctrlOvie d }) := rfl

theorem exec_wrTcFlag_of_clear {d : Byte} (h : flagClear d = true) (s : State) :
    exec (.wrTcFlag d) s = .next (s.setTc { s.tc with ovf := false }) :=
  if_pos h

theorem exec_wrTcFlag_of_not_clear {d : Byte} (h : flagClear d = false) (s : State) :
    exec (.wrTcFlag d) s = .next s := by
  simp [exec, execWrTcFlag, h]

/-- What a write to TC can do to it, by its access. -/
inductive TcWriteEffect (tc : Tc) : Instr → Tc → Prop where
  | nothing (i : Instr) : TcWriteEffect tc i tc
  | writesCtrl (d : Byte) : TcWriteEffect tc (.wrTcCtrl d) { tc with run := ctrlRun d, ovie := ctrlOvie d }
  | clearsOvf (d : Byte) : TcWriteEffect tc (.wrTcFlag d) { tc with ovf := false }

/-- A write to TC has its effect there and changes nothing else. -/
theorem tcWriteEffect_of_exec {i : Instr} {s t : State}
    (hi : ∃ d, i = .wrTcCtrl d ∨ i = .wrTcCnt d ∨ i = .wrTcFlag d) (h : exec i s = .next t) :
    ∃ tc, t = s.setTc tc ∧ TcWriteEffect s.tc i tc := by
  obtain ⟨d, rfl | rfl | rfl⟩ := hi
  · cases (exec_wrTcCtrl d s).symm.trans h
    exact ⟨_, rfl, .writesCtrl d⟩
  · cases h
    exact ⟨s.tc, rfl, .nothing _⟩
  · cases hclear : flagClear d with
    | true =>
      cases (exec_wrTcFlag_of_clear hclear s).symm.trans h
      exact ⟨_, rfl, .clearsOvf d⟩
    | false =>
      cases (exec_wrTcFlag_of_not_clear hclear s).symm.trans h
      exact ⟨s.tc, rfl, .nothing _⟩

variable {tc tc' : Tc} {i : Instr}

theorem TcWriteEffect.cnt (h : TcWriteEffect tc i tc') : tc'.cnt = tc.cnt := by
  cases h <;> rfl

theorem TcWriteEffect.ps (h : TcWriteEffect tc i tc') : tc'.ps = tc.ps := by
  cases h <;> rfl

theorem TcWriteEffect.ctrl (h : TcWriteEffect tc i tc') (hi : ∀ d, i ≠ .wrTcCtrl d) :
    tc'.run = tc.run ∧ tc'.ovie = tc.ovie := by
  cases h with
  | writesCtrl d => exact absurd rfl (hi d)
  | nothing | clearsOvf => exact ⟨rfl, rfl⟩

theorem TcWriteEffect.ovf (h : TcWriteEffect tc i tc') (hi : ∀ d, i ≠ .wrTcFlag d) : tc'.ovf = tc.ovf := by
  cases h with
  | clearsOvf d => exact absurd rfl (hi d)
  | nothing | writesCtrl => rfl

end Sys2Proof.Machine

namespace Sys2Proof

open Machine

/-- Settles O23: `exec_wrTcCtrl`, with the two bits as numbers. -/
theorem writeOfTcCtrlSetsRunAndOvie : Obligations.WriteOfTcCtrlSetsRunAndOvie := by
  intro d s
  refine ⟨decode_accessWord true 4 d, ?_, fun t hexec hovf => ?_⟩
  · rw [← ctrlRun_eq, ← ctrlOvie_eq]
    exact exec_wrTcCtrl d s
  · cases (exec_wrTcCtrl d s).symm.trans hexec
    simp [irqOvf, hovf, ctrlOvie_eq]

/-- Settles O24: the parity of the byte is its bit 0. -/
theorem writeOfTcFlagClearsByOne : Obligations.WriteOfTcFlagClearsByOne := by
  intro d s
  refine ⟨decode_accessWord true 6 d, fun hodd => ?odd, fun heven => ?even⟩
  case odd => exact exec_wrTcFlag_of_clear (by simp [flagClear_eq, hodd]) s
  case even => exact exec_wrTcFlag_of_not_clear (by simp [flagClear_eq, heven]) s

/-- Settles O54: a write to TC has its `TcWriteEffect` there and leaves the rest of the state. -/
theorem tcWritesTouchOnlyTheirRegister : Obligations.TcWritesTouchOnlyTheirRegister := by
  intro i s t hi hexec
  obtain ⟨tc, rfl, heffect⟩ := tcWriteEffect_of_exec hi hexec
  exact ⟨rfl, rfl, rfl, rfl, rfl, rfl, rfl, heffect.cnt, heffect.ps, heffect.ctrl, heffect.ovf⟩

/-- Settles O18: the reads return `readValue`, and the bytes of TC_CTRL and TC_FLAG hold their bits. -/
theorem readsOfTcReturnTheRegister : Obligations.ReadsOfTcReturnTheRegister := by
  refine ⟨rfl, rfl, rfl, fun s => ⟨?ctrl, ?cnt, ?flag⟩⟩
  case ctrl =>
    rw [← ctrlByte_eq_ofNat]
    exact exec_decodeRead (r := .tcCtrl) nofun
  case cnt => exact exec_decodeRead (r := .tcCnt) nofun
  case flag =>
    rw [← flagByte_eq_ofNat]
    exact exec_decodeRead (r := .tcFlag) nofun

end Sys2Proof
end

section
/-! The critical section (42_host_procedures R178, R179) and the divider (R172). -/

namespace Sys2Proof.Machine

/-! ### Truth values -/

theorem truth_eq_toNat (b : Bool) : truth b = b.toNat := by
  cases b <;> rfl

@[simp] theorem truth_eq_zero_iff (b : Bool) : truth b = 0 ↔ b = false := by
  rw [truth_eq_toNat, Bool.toNat_eq_zero]

/-! ### The critical section -/

@[simp] theorem State.localVal_setHostSide (s : State) (x : HostSide) (v : Local) :
    (s.setHostSide x).localVal v = s.localVal v :=
  State.localVal_congr v rfl rfl

theorem execStmt_csEnter (v : Local) (s : State) :
    execStmt (.csEnter v) s = .next ((s.setLocal v s.hostside.hie.toNat).setHostSide
      { s.hostside with hie := false }).advance := by
  rw [← truth_eq_toNat]
  rfl

/-- CS_EXIT restores the bit its local holds. -/
theorem execStmt_csExit_of_saved {s : State} {v : Local} {b : Bool} (h : s.localVal v = b.toNat) :
    execStmt (.csExit v) s = .next (s.setHostSide { s.hostside with hie := b }).advance := by
  have hbit : b.toNat.testBit 0 = b := by cases b <;> rfl
  simp [execStmt, csExit, h, hbit]

/-! ### The divider -/

theorem divider_le_255 (ft fc : Nat) : divider ft fc ≤ 255 := by
  unfold divider
  split
  · exact Nat.zero_le 255
  · exact Nat.min_le_left 255 _

/-- Below the clamp, the divider is at most `d` exactly when `d` meets the target: the quotient is a ceiling. -/
theorem divider_le_iff {ft fc d : Nat} (hft : 0 < ft) (hd : d < 255) :
    divider ft fc ≤ d ↔ fc ≤ ft * (16 + 2 * d) := by
  have hsum : ft * (16 + 2 * d) = 16 * ft + 2 * ft * d := by ring
  rw [hsum, divider]
  split
  · omega
  · rw [← Nat.ceilDiv_eq_add_pred_div, min_le_iff, ceilDiv_le_iff_le_mul (by omega)]
    omega

end Sys2Proof.Machine

namespace Sys2Proof

open Machine

/-- Settles O48: CS_ENTER saves HIE as a number, and CS_EXIT takes it back from that number's bit 0. -/
theorem criticalSectionRestoresThePriorState : Obligations.CriticalSectionRestoresThePriorState := by
  refine fun s v => ⟨⟨_, execStmt_csEnter v s, rfl, by simp, rfl, rfl, rfl⟩, fun u hsaved => ?_⟩
  exact ⟨_, execStmt_csExit_of_saved hsaved, rfl, rfl, rfl, rfl⟩

/-- Settles O57: `divider_le_iff` at the divider itself and at every smaller value. -/
theorem dividerIsTheSmallestThatMeetsTheTarget : Obligations.DividerIsTheSmallestThatMeetsTheTarget := by
  intro ft fc hft _
  have hmax : divider ft fc ≤ 255 := divider_le_255 ft fc
  have hmeets (hlt : divider ft fc < 255) : fc ≤ ft * (16 + 2 * divider ft fc) :=
    (divider_le_iff hft hlt).1 le_rfl
  refine ⟨hmax, fun hreach => ⟨?meets, fun d hd => ?smallest⟩, fun hfast => ?clamped⟩
  case meets =>
    obtain hlt | heq := hmax.lt_or_eq
    · exact hmeets hlt
    · simpa [heq] using hreach
  case smallest =>
    have hle := (divider_le_iff (fc := fc) hft (hd.trans_le hmax)).not
    omega
  case clamped =>
    obtain hlt | heq := hmax.lt_or_eq
    · have hbound : ft * (16 + 2 * divider ft fc) ≤ ft * 526 := Nat.mul_le_mul_left ft (by omega)
      have := hmeets hlt
      omega
    · exact heq

end Sys2Proof
end

section
/-! The combine of `now_us` (42_host_procedures R182, R183), its expressions in HOST's program, and its exactness
across a tick (R185). -/

namespace Sys2Proof.Machine

/-! ### The compensation (R182 step 5) -/

theorem getLsbD_zero_iff_odd (f : Byte) : f.getLsbD 0 = true ↔ f.toNat % 2 = 1 := by
  rw [BitVec.getLsbD, Nat.testBit_zero, decide_eq_true_iff]

theorem compensate_of_flag {t f : Byte} (hf : f.getLsbD 0 = true) (ht : t ≠ 255) (m : Word64) :
    compensate m t f = m + 1 :=
  if_pos ⟨hf, ht⟩

theorem compensate_of_no_flag {f : Byte} (hf : f.getLsbD 0 = false) (m : Word64) (t : Byte) :
    compensate m t f = m :=
  if_neg fun h => Bool.eq_false_iff.1 hf h.1

theorem compensate_255 (m : Word64) (f : Byte) : compensate m 255 f = m := by
  simp [compensate]

theorem compensate_toNat (m : Word64) (t f : Byte) :
    (compensate m t f).toNat =
      if f.toNat % 2 = 1 ∧ t.toNat ≠ 255 then (m.toNat + 1) % 2 ^ 64 else m.toNat := by
  have hcond : (f.getLsbD 0 = true ∧ t ≠ 255) ↔ (f.toNat % 2 = 1 ∧ t.toNat ≠ 255) :=
    and_congr (getLsbD_zero_iff_odd f) BitVec.toNat_ne
  rw [compensate, apply_ite BitVec.toNat]
  simp only [hcond]
  rfl

/-! ### The tick count (R183) -/

/-- The OR is a sum, because the low 8 bits of the shifted value are 0. -/
theorem shiftLeft_or_setWidth_toNat (m : Word64) (t : Byte) :
    (m <<< 8 ||| t.setWidth 64).toNat = (m.toNat * 256 + t.toNat) % 2 ^ 64 := by
  have hdisjoint : m <<< 8 &&& t.setWidth 64 = 0#64 := by
    ext i hi
    by_cases h : i < 8
    · simp [h]
    · simp [BitVec.getLsbD_of_ge t i (Nat.le_of_not_lt h)]
  rw [← BitVec.add_eq_or_of_and_eq_zero _ _ hdisjoint]
  simp [BitVec.toNat_add, Nat.shiftLeft_eq]

theorem combineTicks_toNat (m : Word64) (t f : Byte) :
    (combineTicks m t f).toNat = ((compensate m t f).toNat * 256 + t.toNat) % 2 ^ 64 :=
  shiftLeft_or_setWidth_toNat (compensate m t f) t

theorem combineMicros_toNat (m : Word64) (t f : Byte) :
    (combineMicros m t f).toNat = (combineTicks m t f).toNat / 2 := by
  rw [combineMicros, BitVec.toNat_ushiftRight, Nat.shiftRight_eq_div_pow, pow_one]

/-- Bits 63:56 are shifted out, before the compensation and after it. -/
theorem combineTicks_congr {m m' : Word64} (h : m.toNat % 2 ^ 56 = m'.toNat % 2 ^ 56) (t f : Byte) :
    combineTicks m t f = combineTicks m' t f := by
  apply BitVec.eq_of_toNat_eq
  rw [combineTicks_toNat, combineTicks_toNat, compensate_toNat, compensate_toNat]
  split <;> omega

/-! ### The expressions of `now_us` -/

section

variable (s : State) (e a b : Expr)

theorem eval_field_zero : eval s (.field e 0 0) = eval s e % 2 := rfl

theorem eval_eq_eq_zero_iff : eval s (.eq a b) = 0 ↔ eval s a ≠ eval s b := by
  simp [eval]

theorem eval_either_eq_zero_iff : eval s (.either a b) = 0 ↔ eval s a = 0 ∧ eval s b = 0 := by
  simp [eval]

end

variable {s : State}

theorem eval_noCompensationExpr_eq_zero_iff {t f : Byte} (ht : s.localVal tVar = t.toNat)
    (hf : s.localVal fVar = f.toNat) :
    eval s noCompensationExpr = 0 ↔ f.getLsbD 0 = true ∧ t ≠ 255 := by
  rw [noCompensationExpr, eval_either_eq_zero_iff, eval_eq_eq_zero_iff, eval_eq_eq_zero_iff, eval_field_zero,
    getLsbD_zero_iff_odd, BitVec.toNat_ne]
  simp [eval, ht, hf]

theorem eval_compensateExpr {m : Word64} (hm : s.localVal mVar = m.toNat) :
    eval s compensateExpr = (m + 1).toNat := by
  simp [compensateExpr, eval, hm, BitVec.toNat_add]

theorem eval_ticksExpr {m : Word64} {t : Byte} (hm : s.localVal mVar = m.toNat)
    (ht : s.localVal tVar = t.toNat) : eval s ticksExpr = (m <<< 8 ||| t.setWidth 64).toNat := by
  rw [BitVec.toNat_or, BitVec.toNat_setWidth_of_le (by decide)]
  simp [ticksExpr, eval, hm, ht]

/-! ### Across a tick (R185) -/

theorem flagByte_getLsbD_zero (tc : Tc) : (flagByte tc).getLsbD 0 = tc.ovf := by
  rw [flagByte, bitByte]
  cases tc.ovf <;> rfl

theorem Tc.tick_ovf_of_ne_255 {tc : Tc} (h : tc.cnt ≠ 255) : tc.tick.ovf = tc.ovf := by
  rw [Tc.tick_of_ne_255 h]

/-- A TICK step that does not wrap leaves OVF. -/
theorem tickStep_ovf_of_ne_255 {t : State} (h : tickStep s = .next t) (hcnt : s.tc.cnt ≠ 255) :
    t.tc.ovf = s.tc.ovf := by
  obtain ⟨-, hs⟩ | ⟨-, hs⟩ := tickStep_cases s <;> cases hs.symm.trans h
  · exact Tc.tick_ovf_of_ne_255 hcnt
  · rfl

/-- Away from 255, the compensation adds the flag. -/
theorem compensate_flagByte {t : Byte} (ht : t ≠ 255) (m : Word64) (tc : Tc) :
    compensate m t (flagByte tc) = m + BitVec.ofNat 64 tc.ovf.toNat := by
  have hflag := flagByte_getLsbD_zero tc
  cases hovf : tc.ovf <;> rw [hovf] at hflag
  · rw [compensate_of_no_flag hflag]
    exact (BitVec.add_zero m).symm
  · exact compensate_of_flag hflag ht m

/-- A tick between the two reads does not change the compensation: the one that sets OVF comes at 255, where the
flag is ignored. -/
theorem compensate_across_tick {t : State} (hpending : s.tc.ovf = true → s.tc.cnt ≠ 255)
    (ht : t = s ∨ tickStep s = .next t) (m : Word64) :
    compensate m s.tc.cnt (flagByte t.tc) = m + BitVec.ofNat 64 s.tc.ovf.toNat := by
  by_cases hcnt : s.tc.cnt = 255
  · have hovf : s.tc.ovf = false := Bool.eq_false_iff.2 fun h => hpending h hcnt
    rw [hcnt, compensate_255, hovf]
    exact (BitVec.add_zero m).symm
  · have hkeeps : t.tc.ovf = s.tc.ovf := by
      obtain rfl | htick := ht
      · rfl
      · exact tickStep_ovf_of_ne_255 htick hcnt
    rw [compensate_flagByte hcnt, hkeeps]

end Sys2Proof.Machine

namespace Sys2Proof

open Machine

/-- Settles O58: each part is a lemma on the combine as numbers; halving a 64-bit value gives the bound. -/
theorem combineIsTicksModuloTwoToThe64 : Obligations.CombineIsTicksModuloTwoToThe64 := by
  intro m t f
  have hmicros := combineMicros_toNat m t f
  have hticks := (combineTicks m t f).isLt
  exact ⟨combineTicks_toNat m t f, hmicros, by omega, compensate_toNat m t f,
    fun _ h => combineTicks_congr h t f⟩

/-- Settles O59, expression by expression. -/
theorem nowUsExpressionsAreTheCombine : Obligations.NowUsExpressionsAreTheCombine :=
  fun _ _ _ _ hm ht hf =>
    ⟨eval_noCompensationExpr_eq_zero_iff ht hf, eval_compensateExpr hm, eval_ticksExpr hm ht⟩

/-- Settles O60: the compensated OVC counts the wraps, so 256 times it, plus CNT, is the tick count. -/
theorem combineIsExactAcrossATick : Obligations.CombineIsExactAcrossATick := by
  intro ticks s s4 n hcnt _ hwraps hpending hs4
  have hcomp : compensate n s.tc.cnt (flagByte s4.tc) = BitVec.ofNat 64 (ticks / 256) :=
    (compensate_across_tick hpending hs4 n).trans hwraps
  rw [combineTicks_toNat, hcomp, hcnt, BitVec.toNat_ofNat, BitVec.toNat_ofNat]
  omega

end Sys2Proof
end

section
/-! A host access of the right width answers (60_exceptions R201), and what the agents of the counter, TICK and
HANDLER, can write (41_counter R148, R151, 60_exceptions R207). -/

namespace Sys2Proof.Machine

variable {s t : State}

theorem exists_hostAccess_eq_next (width : Nat) (w : AccessWord) (dst : Option Local) (s : State) :
    ∃ t, hostAccess width w dst s = .next t := by
  obtain ⟨r, hraise⟩ | ⟨i, u, -, -, -, hact⟩ := hostAccess_cases width w dst s
  · exact ⟨s.raise r, hraise⟩
  · exact ⟨afterAccess dst u, hact⟩

/-- `t` differs from `s` in TC, OVC and FAULT at most: what TICK and the HANDLER work on (R148, R151). -/
def CounterFrame (s t : State) : Prop :=
  t = { s with tc := t.tc, hostside := { s.hostside with ovc := t.hostside.ovc }, fault := t.fault }

theorem tickStep_counterFrame (h : tickStep s = .next t) : CounterFrame s t := by
  obtain ⟨tc, rfl⟩ := tickStep_eq h
  rfl

theorem takeNotification_counterFrame (s : State) : CounterFrame s s.takeNotification := by
  obtain ⟨n, -, ht⟩ | ⟨-, ht⟩ := s.takeNotification_cases <;> rw [ht] <;> rfl

theorem handlerStep_counterFrame (h : handlerStep s = .next t) : CounterFrame s t := by
  obtain ⟨-, hs⟩ | ⟨-, hs⟩ := handlerStep_cases s <;> cases hs.symm.trans h
  · exact takeNotification_counterFrame s
  · rfl

theorem agentStep_counterFrame {p : Pick} (h : agentStep p s = .next t) (hp : p = .tick ∨ p = .handler) :
    CounterFrame s t := by
  obtain rfl | rfl := hp
  · exact tickStep_counterFrame h
  · exact handlerStep_counterFrame h

theorem CounterFrame.unchanged (h : CounterFrame s t) : t.im = s.im ∧ t.host = s.host ∧ t.trace = s.trace ∧
    t.rdata = s.rdata ∧ t.hostside.hie = s.hostside.hie := by
  rw [h]
  exact ⟨rfl, rfl, rfl, rfl, rfl⟩

end Sys2Proof.Machine

namespace Sys2Proof

open Machine

/-- Settles O14: an access acts or records a fault, and either is a next state. -/
theorem everyAccessOfTheRightWidthCompletes : Obligations.EveryAccessOfTheRightWidthCompletes :=
  exists_hostAccess_eq_next 8

/-- Settles O51: the step of either agent stays in its frame, and using up the pick writes the inputs alone. -/
theorem tickAndHandlerLeaveImAndHostAlone : Obligations.TickAndHandlerLeaveImAndHostAlone := by
  intro s t hstep hpick
  simpa using (agentStep_counterFrame (step_next hstep).2 hpick).unchanged

end Sys2Proof
end

section
/-! The reset input as a step (70_reset_and_hazards R230, 10_state R45). -/

namespace Sys2Proof

open Machine

/-- Settles O3: the reset input is picked in every state, and its next state is the reset state with the HOST agent and
the inputs kept. -/
theorem assertedResetGivesResetValues : Obligations.AssertedResetGivesResetValues :=
  fun s hpick => ⟨s.pickTaken.applyReset, step_of_reset hpick, State.applyReset_im _, State.applyReset_tc _,
    State.applyReset_hostside _, State.applyReset_trace _, State.applyReset_fault _, State.pickTaken_host s,
    State.applyReset_inputs _⟩

end Sys2Proof
end
